-- ==== Sys2Proof/Word.lean ====
section
/-! DEFINITION. The value types of the block: unsigned bit vectors of the widths that
00_scope.md rules R6 and R7 fix. -/

namespace Sys2Proof

/-- Register48, the cipher register (R6 `N48`, R21). -/
abbrev Reg48 := BitVec 48

/-- Register16, the PRNG register (R6 `N16`, R23). -/
abbrev Reg16 := BitVec 16

/-- A nonce, a uid or a wire value (R6 `W_NONCE`, `W_UID`; R28). -/
abbrev Nonce32 := BitVec 32

/-- The `DATA` field of a command and of a response (R6 `W_DATA`; R80, R87). -/
abbrev Data48 := BitVec 48

/-- A command word (R6 `W_CMD`; R80). -/
abbrev CmdWord := BitVec 64

end Sys2Proof
end

