-- ==== Sys2Proof/Syntax.lean ====
section
/-! DEFINITION. The commands of CORE-CMD v1 (30_encoding.md rule R85): one constructor per
row of the opcode map. An operand field `data` is the whole 48-bit `DATA` field of the word:
a word whose `DATA` does not fit the operand's width still encodes its command, which then
answers `InvalidWidth` (R84), so the width is no part of the form of an instruction. -/

namespace Sys2Proof

/-- The two endpoints, `EP = 0` the Tag and `EP = 1` the Reader (R10, R82). -/
inductive Endpoint where
  | tag
  | reader
deriving DecidableEq, Repr

/-- The 28 commands, in the order of the opcode map (R85). -/
inductive Instr where
  /-- `NOP` (R238). -/
  | nop
  /-- `ENG_RESET.ep` (R199). -/
  | engReset (ep : Endpoint)
  /-- `ENG_LOAD.ep x` (R200), operand `data48`. -/
  | engLoad (ep : Endpoint) (x : Data48)
  /-- `ENG_MIX.ep x` (R201), operand `data48`. -/
  | engMix (ep : Endpoint) (x : Data48)
  /-- `ENG_CLK.ep [in=b]` (R202): the fields `IV` and `IB` (R83). -/
  | engClk (ep : Endpoint) (iv ib : Bool)
  /-- `ENG_KS.ep n` (R203), operand `count`. -/
  | engKs (ep : Endpoint) (n : Data48)
  /-- `ENG_RDSTATE.ep` (R204). -/
  | engRdstate (ep : Endpoint)
  /-- `PRNG_SEED.ep seed` (R170), operand `data16`. -/
  | prngSeed (ep : Endpoint) (data : Data48)
  /-- `PRNG_CLK.ep` (R171). -/
  | prngClk (ep : Endpoint)
  /-- `PRNG_NONCE.ep seed=s, ticks=t` (R172), operand `nonceargs`. -/
  | prngNonce (ep : Endpoint) (data : Data48)
  /-- `PRNG_RDSTATE.ep` (R173). -/
  | prngRdstate (ep : Endpoint)
  /-- `SUC n` (R174), operand `data32`. -/
  | suc (data : Data48)
  /-- `FILTER v` (R146), operand `data48`. -/
  | filter (v : Data48)
  /-- `SET_UID u` (R223), operand `data32`. -/
  | setUid (data : Data48)
  /-- `SET_KEY.ep k` (R224), operand `data48`. -/
  | setKey (ep : Endpoint) (k : Data48)
  /-- `SET_SEED.ep s` (R225), operand `data16`. -/
  | setSeed (ep : Endpoint) (data : Data48)
  /-- `SET_TICKS.ep t` (R226), operand `data16`. -/
  | setTicks (ep : Endpoint) (data : Data48)
  /-- `SESSION_NEW` (R227). -/
  | sessionNew
  /-- `AUTH_STEP` (R228). -/
  | authStep
  /-- `WIRE_WR_NT v` (R241), operand `data32`. -/
  | wireWrNt (data : Data48)
  /-- `WIRE_WR_NR v` (R242), operand `data32`. -/
  | wireWrNr (data : Data48)
  /-- `WIRE_WR_AR v` (R243), operand `data32`. -/
  | wireWrAr (data : Data48)
  /-- `WIRE_WR_AT v` (R244), operand `data32`. -/
  | wireWrAt (data : Data48)
  /-- `RD_STATUS` (R239). -/
  | rdStatus
  /-- `RD_WIRE_NT` (R245). -/
  | rdWireNt
  /-- `RD_WIRE_NR` (R246). -/
  | rdWireNr
  /-- `RD_WIRE_AR` (R247). -/
  | rdWireAr
  /-- `RD_WIRE_AT` (R248). -/
  | rdWireAt
deriving DecidableEq, Repr

end Sys2Proof
end

