-- ==== Sys2Proof/Machine/State.lean ====
section
/-! DEFINITION. The state of the block (10_state.md rule R20), the host's side of the command
interface (30_encoding.md rules R80 and R87), the reset state (70_reset_and_hazards.md rule
R311), and the reasons a step can stop. -/

namespace Sys2Proof.Machine

/-- One value for each endpoint: `x[T]` and `x[R]` of R20. -/
structure PerEndpoint (α : Type) where
  tag : α
  reader : α
deriving DecidableEq, Repr

/-- The error codes (R280). Codes 10 to 15 are never produced and have no constructor. -/
inductive ErrCode where
  | ok
  | invalidWidth
  | notPrimed
  | alreadyPrimed
  | invalidTickCount
  | desynchronizedState
  | authenticationFailed
  | zeroSeed
  | protocolViolation
  | illegalCommand
deriving DecidableEq, Repr

/-- The states of the Authentication State Machine (R30). Codes 6 and 7 are never held and have
no constructor. -/
inductive FsmState where
  | idle
  | nonceIssued
  | challengeSent
  | responseVerified
  | authenticated
  | failed
deriving DecidableEq, Repr

/-- `eng[ep]` (R21, R22, R190). -/
structure Engine where
  reg : Reg48
  primed : Bool
deriving DecidableEq, Repr

/-- `prng[ep]` (R23). -/
structure Prng where
  reg : Reg16
deriving DecidableEq, Repr

/-- `cfg` (R24 to R27). -/
structure SessionConfig where
  uid : Nonce32
  key : PerEndpoint Reg48
  seed : PerEndpoint Reg16
  ticks : PerEndpoint (BitVec 16)
deriving DecidableEq, Repr

/-- `wire` (R28); `wire.at` is the field `at_`, since `at` is a word of Lean. -/
structure Wires where
  nt : Nonce32
  nr : Nonce32
  ar : Nonce32
  at_ : Nonce32
deriving DecidableEq, Repr

/-- `lat` (R29): `lat.tag_nt`, `lat.rdr_nt`, `lat.rdr_nr`, `lat.tag_nr`. -/
structure Latches where
  tagNt : Nonce32
  rdrNt : Nonce32
  rdrNr : Nonce32
  tagNr : Nonce32
deriving DecidableEq, Repr

/-- `fsm` (R30, R31): the state and the error code that moved it to `Failed`. -/
structure Fsm where
  state : FsmState
  fail : ErrCode
deriving DecidableEq, Repr

/-- `rsp` (R87). -/
structure Response where
  err : ErrCode
  data : Data48
deriving DecidableEq, Repr

/-- What the host does to the block: it delivers a command word (R80), or it asserts or releases
the reset input (R310; assumption log 2). -/
inductive HostEvent where
  | command (w : CmdWord)
  | assertReset
  | releaseReset
deriving DecidableEq, Repr

/-- The host's side of the interface. None of it is state of the block (R20: "The command word
being executed, the response it produces and the host are not state"); the model holds it so
that a step has its input and its output (assumption log 1). -/
structure HostPort where
  /-- What the host will do, the next event first. -/
  pending : List HostEvent
  /-- The reset input is asserted (R310). -/
  resetAsserted : Bool
  /-- The responses given so far, the oldest first (R87). -/
  responses : List Response
deriving DecidableEq, Repr

/-- The block (R20) and the host's side of its command interface. -/
structure State where
  eng : PerEndpoint Engine
  prng : PerEndpoint Prng
  cfg : SessionConfig
  wire : Wires
  lat : Latches
  fsm : Fsm
  host : HostPort
deriving DecidableEq, Repr

/-- The reset state (R311), with the host about to send nothing. -/
def State.reset : State where
  eng := ⟨⟨0, false⟩, ⟨0, false⟩⟩
  prng := ⟨⟨0⟩, ⟨0⟩⟩
  cfg := ⟨0, ⟨0, 0⟩, ⟨0, 0⟩, ⟨0, 0⟩⟩
  wire := ⟨0, 0, 0, 0⟩
  lat := ⟨0, 0, 0, 0⟩
  fsm := ⟨.idle, .ok⟩
  host := ⟨[], false, []⟩

/-- The reasons the machine stops with a fault: none. Every error of the block is an answer to
the command that raised it, after which the next command runs normally (R285, R287). Nobody
raises a fault; that is safe and exact, since the spec stops the block nowhere (DEDUCED, assumption
log 6). -/
inductive Fault where
deriving DecidableEq, Repr

/-- The reasons a step has no meaning. -/
inductive Refusal where
  /-- An arm of `exec` whose instruction has no meaning yet. Every arm has one, so nobody raises
  it. It would be safe: the machine would stop where the block goes on. -/
  | notModelled (mnemonic : String)
deriving DecidableEq, Repr

/-- The outcome of one step. -/
abbrev Outcome := Host.Outcome State Fault Refusal

end Sys2Proof.Machine
end

