-- ==== Sys2Proof/Machine/Flags.lean ====
section
/-! DEFINITION. The codes of states and errors (10_state.md rule R30, 60_exceptions.md rule R280),
the status word with the primed flags (R35), and the tables that say which states admit a class
of commands (44_auth_fsm.md rule R221) and which errors enter `Failed` (60_exceptions.md rule
R283). -/

namespace Sys2Proof.Machine

/-- The code of an FSM state (R30). -/
def FsmState.code : FsmState → BitVec 3
  | .idle => 0
  | .nonceIssued => 1
  | .challengeSent => 2
  | .responseVerified => 3
  | .authenticated => 4
  | .failed => 5

/-- The code of an error (R280). -/
def ErrCode.code : ErrCode → BitVec 4
  | .ok => 0
  | .invalidWidth => 1
  | .notPrimed => 2
  | .alreadyPrimed => 3
  | .invalidTickCount => 4
  | .desynchronizedState => 5
  | .authenticationFailed => 6
  | .zeroSeed => 7
  | .protocolViolation => 8
  | .illegalCommand => 9

/-- "In handshake" (R220): a transition has run and the handshake has not ended. -/
def FsmState.inHandshake : FsmState → Bool
  | .nonceIssued | .challengeSent | .responseVerified => true
  | .idle | .authenticated | .failed => false

/-- The terminal states (R220): no AUTH_STEP leaves them. -/
def FsmState.terminal : FsmState → Bool
  | .authenticated | .failed => true
  | .idle | .nonceIssued | .challengeSent | .responseVerified => false

/-- The state code as response data (R228). -/
def FsmState.data (st : FsmState) : Data48 := st.code.setWidth 48

/-- The status word (R35), built as R239 builds it. -/
def statusWord (s : State) : Data48 :=
  s.fsm.state.data
    ||| ((BitVec.ofBool s.eng.tag.primed).setWidth 48 <<< 3)
    ||| ((BitVec.ofBool s.eng.reader.primed).setWidth 48 <<< 4)
    ||| (s.fsm.fail.code.setWidth 48 <<< 8)

/-- The command classes (R221). -/
inductive CommandClass where
  | pure
  | direct
  | config
  | new
  | step
  | wire
deriving DecidableEq, Repr

/-- Whether an error of a command of this class, raised in this state, enters `Failed`: the four
cases of R283 and no other. -/
def entersFailed : CommandClass → FsmState → ErrCode → Bool
  | .pure, _, _ => false
  | .new, _, _ => false
  | .direct, st, e => st.inHandshake && e == .protocolViolation
  | .config, st, e =>
    (st.inHandshake && e == .protocolViolation)
      || (st == .idle && (e == .invalidWidth || e == .invalidTickCount))
  | .step, st, _ => !st.terminal
  | .wire, st, e => !st.terminal && (e == .protocolViolation || e == .invalidWidth)

end Sys2Proof.Machine
end

