-- ==== Sys2Proof/Config.lean ====
section
/-! DEFINITION. The parameter values of the block (00_scope.md rule R6). None is a free
argument of the model, and the spec leaves no value open (93_implementation_defined.md,
introduction: no entry is `any value` or `parameter`), so this file holds no free value.
The widths of R6 stand in Word.lean, as types. -/

namespace Sys2Proof.Config

/-- The largest keystream count of one ENG_KS command (R6 `KS_MAX`). -/
def ksMax : Nat := 48

/-- A tick count must be a multiple of this (R167). -/
def tickUnit : Nat := 16

/-- The number of PRNG clocks that make one nonce half (R164). -/
def halfClocks : Nat := 16

/-- The number of keystream bits that encrypt one wire value (R62, R233). -/
def wireBits : Nat := 32

end Sys2Proof.Config
end

