-- ==== Sys2Proof/Machine/Operands.lean ====
section
/-! DEFINITION. Operand assembly: the six operand kinds of 30_encoding.md rule R84, `from_integer`
(40_bit_register.md rule R124) and the input bit of ENG_CLK (R83). -/

namespace Sys2Proof.Machine

/-- `raise e` unless the condition holds (R11). -/
def require (ok : Bool) (e : ErrCode) : Except ErrCode Unit := if ok then .ok () else .error e

/-- `from_integer(DATA, width)` (R124): `InvalidWidth` when a bit above the width is set. -/
def fromInteger (width : Nat) (data : Data48) : Except ErrCode (BitVec width) := do
  require (data.toNat < 2 ^ width) .invalidWidth
  return data.setWidth width

/-- Operand kind `data48`: the field itself, which always fits (R84). -/
def operandData48 (data : Data48) : Reg48 := data

/-- Operand kind `data32` (R84). -/
def operandData32 (data : Data48) : Except ErrCode Nonce32 := fromInteger 32 data

/-- Operand kind `data16` (R84). -/
def operandData16 (data : Data48) : Except ErrCode (BitVec 16) := fromInteger 16 data

/-- Operand kind `nonceargs` (R84): `seed = DATA[15:0]`, `ticks = DATA[31:16]`. -/
def operandNonceArgs (data : Data48) : Except ErrCode (Reg16 × BitVec 16) := do
  let v ← fromInteger 32 data
  return (v.extractLsb' 0 16, v.extractLsb' 16 16)

/-- Operand kind `count` (R84): `InvalidWidth` when `n > 48`. -/
def operandCount (data : Data48) : Except ErrCode Nat := do
  require (data.toNat ≤ Config.ksMax) .invalidWidth
  return data.toNat

/-- The input of ENG_CLK (R83): none when `IV = 0`, the bit `IB` when `IV = 1`; `IV = 0, IB = 1`
is illegal. -/
def operandInputBit (iv ib : Bool) : Except ErrCode (Option Bool) := do
  require (iv || !ib) .illegalCommand
  return if iv then some ib else none

/-- A 32-bit value widened to the 48-bit register (R63). -/
def zext48 (v : Nonce32) : Reg48 := v.setWidth 48

/-- A one-bit result as response data (R11, R87). -/
def bitData (b : Bool) : Data48 := (BitVec.ofBool b).setWidth 48

end Sys2Proof.Machine
end

