-- ==== Sys2Proof/Machine/Ops.lean ====
section
/-! DEFINITION. The named operations over registers: the Bit Register primitives
(40_bit_register.md), the choice of an endpoint's register, the gate, the response, the failure
entry and the one way a command is answered (60_exceptions.md rules R281 to R283), and the two
ways back from `Failed` (R288). -/

namespace Sys2Proof.Machine

/-- `idx_N(v, i) = v[N-1-i]` (R8, R60): index 0 is the newest bit, the most significant. -/
def idx {n : Nat} (v : BitVec n) (i : Nat) : Bool := v.getMsbD i

/-- `shift_in_N(v, b) = (v', d)` (R121). -/
def shiftIn {n : Nat} (v : BitVec n) (b : Bool) : BitVec n × Bool :=
  (((BitVec.ofBool b).setWidth n <<< (n - 1)) ||| (v >>> 1), v.getLsbD 0)

/-- `tap_N(v, is)` (R122). -/
def tap {n : Nat} (v : BitVec n) (is : List Nat) : List Bool := is.map (idx v)

/-- The XOR of a list of bits, which every feedback rule takes of its taps (R160, R168, R191). -/
def xorBits (bs : List Bool) : Bool := bs.foldr Bool.xor false

/-- `x[ep]` (R10). -/
def PerEndpoint.get {α : Type} (p : PerEndpoint α) : Endpoint → α
  | .tag => p.tag
  | .reader => p.reader

/-- `x[ep] <- a` (R10). -/
def PerEndpoint.set {α : Type} (p : PerEndpoint α) (ep : Endpoint) (a : α) : PerEndpoint α :=
  match ep with
  | .tag => { p with tag := a }
  | .reader => { p with reader := a }

/-- `eng[ep] <- e`. -/
def State.setEng (s : State) (ep : Endpoint) (e : Engine) : State :=
  { s with eng := s.eng.set ep e }

/-- `prng[ep].reg <- v`. -/
def State.setPrng (s : State) (ep : Endpoint) (v : Reg16) : State :=
  { s with prng := s.prng.set ep ⟨v⟩ }

/-- The block answers with one response (R87). -/
def State.respond (s : State) (e : ErrCode) (data : Data48) : State :=
  { s with host := { s.host with responses := s.host.responses ++ [⟨e, data⟩] } }

/-- `enter_failed(E)` (R283): it writes `fsm` and nothing else. -/
def State.enterFailed (s : State) (e : ErrCode) : State := { s with fsm := ⟨.failed, e⟩ }

/-- `gate()` (R221). -/
def gate (s : State) : Except ErrCode Unit :=
  require (!s.fsm.state.inHandshake) .protocolViolation

/-- What a command's pseudocode comes to: a `raise`, or the state it leaves and the value it
returns (R11). -/
abbrev Result := Except ErrCode (State × Data48)

/-- A `return` that leaves the state as it is. -/
def returnData (s : State) (data : Data48) : Result := .ok (s, data)

/-- TAKING AN ERROR, the one shared operation: `s` is the state BEFORE the command, so nothing a
command wrote before its `raise` remains (R282); the answer is `{ E, 0 }` (R281); the failure
entry happens where R283 says. The block has no trap: it saves nothing and jumps nowhere (R287). -/
def State.raiseError (s : State) (c : CommandClass) (e : ErrCode) : State :=
  (if entersFailed c s.fsm.state e then s.enterFailed e else s).respond e 0

/-- A command of class `c` is answered (R11, R87, R281 to R283). -/
def answer (c : CommandClass) (s : State) (r : Result) : Outcome :=
  match r with
  | .ok (t, data) => .next (t.respond .ok data)
  | .error e => .next (s.raiseError c e)

/-- A word that encodes no command is answered `IllegalCommand` and changes no state, not even
`fsm` (R86, R283). -/
def State.answerIllegal (s : State) : State := s.respond .illegalCommand 0

/-- THE WAY BACK, first: the state after SESSION_NEW (R227, R288), which writes both engines,
`wire`, `lat` and `fsm`. -/
def State.freshSession (s : State) : State :=
  { s with
    eng := ⟨⟨0, false⟩, ⟨0, false⟩⟩
    wire := ⟨0, 0, 0, 0⟩
    lat := ⟨0, 0, 0, 0⟩
    fsm := ⟨.idle, .ok⟩ }

/-- THE WAY BACK, second: the hardware reset puts every piece of the block's state into the value
of R311 (R310). The host's events and the responses it has are not the block's. -/
def State.hardwareReset (s : State) : State := { State.reset with host := s.host }

end Sys2Proof.Machine
end

