-- ==== Sys2Proof/Machine/Control.lean ====
section
/-! DEFINITION. The control family: NOP (44_auth_fsm.md rule R238). -/

namespace Sys2Proof.Machine

/-- The pseudocode of NOP (R238). -/
def nopBody (s : State) : Result := returnData s 0

/-- `NOP` (R238). -/
def execNop (s : State) : Outcome := answer .pure s (nopBody s)

end Sys2Proof.Machine
end

