-- ==== Sys2Proof/Machine/Filter.lean ====
section
/-! DEFINITION. The filter function and the filter family: FILTER (41_filter.md). -/

namespace Sys2Proof.Machine

/-- `f_a` (R140). -/
def fA (a b c d : Bool) : Bool := ((a || b) ^^ (a && d)) ^^ (c && ((a ^^ b) || d))

/-- `f_b` (R141). -/
def fB (a b c d : Bool) : Bool := ((a && b) || c) ^^ ((a ^^ b) && (c || d))

/-- `f_c` (R142), the source's formula, not the published one (90_conflicts.md C4). -/
def fC (a b c d e : Bool) : Bool :=
  (a || ((b || e) && (d ^^ e))) ^^ ((a ^^ (b && d)) && ((c ^^ d) && (a && e)))

/-- The filter `F(v)` (R143): twenty inputs in five groups of four, at the odd register indices
from 9 to 47 (decision D4 of the spec). -/
def filterBit (v : Reg48) : Bool :=
  fC (fA (idx v 9) (idx v 11) (idx v 13) (idx v 15))
     (fB (idx v 17) (idx v 19) (idx v 21) (idx v 23))
     (fB (idx v 25) (idx v 27) (idx v 29) (idx v 31))
     (fA (idx v 33) (idx v 35) (idx v 37) (idx v 39))
     (fB (idx v 41) (idx v 43) (idx v 45) (idx v 47))

/-- The pseudocode of FILTER (R146). -/
def filterBody (v : Data48) (s : State) : Result :=
  returnData s (bitData (filterBit (operandData48 v)))

/-- `FILTER v` (R146). -/
def execFilter (v : Data48) (s : State) : Outcome := answer .pure s (filterBody v s)

end Sys2Proof.Machine
end

