-- ==== Sys2Proof/Machine/Engine.lean ====
section
/-! DEFINITION. The Crypto1 Engine and the engine family: ENG_RESET, ENG_LOAD, ENG_MIX, ENG_CLK,
ENG_KS, ENG_RDSTATE (43_engine.md). -/

namespace Sys2Proof.Machine

/-- The linear feedback `L(v)` (R191): eighteen taps, as register indices, index 0 the newest
(decision D5 of the spec). -/
def engFeedback (v : Reg48) : Bool :=
  xorBits (tap v [0, 5, 9, 10, 12, 14, 15, 17, 19, 24, 25, 27, 29, 35, 39, 41, 42, 43])

/-- `clock_with_feedback(v, in) = (v', ks)` (R192): the keystream bit is the filter of the NEW
register value. -/
def engClock (v : Reg48) (input : Option Bool) : Reg48 × Bool :=
  let v' := (shiftIn v (engFeedback v ^^ input.getD false)).1
  (v', filterBit v')

/-- The loop of `keystream` (R193): `n` more clocks, the next bit going to bit `k` of the word
(R62). -/
def keystreamFrom : (n k : Nat) → Reg48 → Data48 → Reg48 × Data48
  | 0, _, v, ks => (v, ks)
  | n + 1, k, v, ks =>
    keystreamFrom n (k + 1) (engClock v none).1 (ks ||| (bitData (engClock v none).2 <<< k))

/-- `keystream(v, n) = (v', KS)` (R193). -/
def keystream (v : Reg48) (n : Nat) : Reg48 × Data48 := keystreamFrom n 0 v 0

/-- `load(e, x)` (R194). -/
def Engine.load (e : Engine) (x : Reg48) : Except ErrCode Engine := do
  require (!e.primed) .alreadyPrimed
  return ⟨x, true⟩

/-- `mix_in(e, x)` (R195). -/
def Engine.mixIn (e : Engine) (x : Reg48) : Except ErrCode Engine := do
  require e.primed .notPrimed
  return { e with reg := e.reg ^^^ x }

/-- `reset(e)` (R196). -/
def Engine.cleared : Engine := ⟨0, false⟩

/-- The engine with another register value, its flag kept. -/
def Engine.withReg (e : Engine) (v : Reg48) : Engine := { e with reg := v }

/-- The pseudocode of ENG_RESET (R199). -/
def engResetBody (ep : Endpoint) (s : State) : Result := do
  gate s
  return (s.setEng ep Engine.cleared, 0)

/-- `ENG_RESET.ep` (R199). -/
def execEngReset (ep : Endpoint) (s : State) : Outcome := answer .direct s (engResetBody ep s)

/-- The pseudocode of ENG_LOAD (R200). -/
def engLoadBody (ep : Endpoint) (x : Data48) (s : State) : Result := do
  gate s
  let e ← (s.eng.get ep).load (operandData48 x)
  return (s.setEng ep e, 0)

/-- `ENG_LOAD.ep x` (R200). -/
def execEngLoad (ep : Endpoint) (x : Data48) (s : State) : Outcome :=
  answer .direct s (engLoadBody ep x s)

/-- The pseudocode of ENG_MIX (R201). -/
def engMixBody (ep : Endpoint) (x : Data48) (s : State) : Result := do
  gate s
  let e ← (s.eng.get ep).mixIn (operandData48 x)
  return (s.setEng ep e, 0)

/-- `ENG_MIX.ep x` (R201). -/
def execEngMix (ep : Endpoint) (x : Data48) (s : State) : Outcome :=
  answer .direct s (engMixBody ep x s)

/-- The pseudocode of ENG_CLK (R202). No word decodes to `IV = 0, IB = 1`; a term of that form is
answered as the word would be (R83, R284; DEDUCED, assumption log 5). -/
def engClkBody (ep : Endpoint) (iv ib : Bool) (s : State) : Result := do
  let input ← operandInputBit iv ib
  gate s
  require (s.eng.get ep).primed .notPrimed
  let (v, ks) := engClock (s.eng.get ep).reg input
  return (s.setEng ep ((s.eng.get ep).withReg v), bitData ks)

/-- `ENG_CLK.ep [in=b]` (R202). -/
def execEngClk (ep : Endpoint) (iv ib : Bool) (s : State) : Outcome :=
  answer .direct s (engClkBody ep iv ib s)

/-- The pseudocode of ENG_KS (R203). -/
def engKsBody (ep : Endpoint) (n : Data48) (s : State) : Result := do
  gate s
  let count ← operandCount n
  require (s.eng.get ep).primed .notPrimed
  let (v, ks) := keystream (s.eng.get ep).reg count
  return (s.setEng ep ((s.eng.get ep).withReg v), ks)

/-- `ENG_KS.ep n` (R203). -/
def execEngKs (ep : Endpoint) (n : Data48) (s : State) : Outcome :=
  answer .direct s (engKsBody ep n s)

/-- The pseudocode of ENG_RDSTATE (R204), which is not gated and needs no primed engine. -/
def engRdstateBody (ep : Endpoint) (s : State) : Result := returnData s (s.eng.get ep).reg

/-- `ENG_RDSTATE.ep` (R204). -/
def execEngRdstate (ep : Endpoint) (s : State) : Outcome := answer .pure s (engRdstateBody ep s)

end Sys2Proof.Machine
end

