-- ==== Sys2Proof/Machine/Prng.lean ====
section
/-! DEFINITION. The PRNG / nonce generator, the successor function, and the prng family:
PRNG_SEED, PRNG_CLK, PRNG_NONCE, PRNG_RDSTATE, SUC (42_prng.md). -/

namespace Sys2Proof.Machine

/-- The PRNG's feedback (R160): four taps, without the source's `bit[0]` (90_conflicts.md C1). -/
def prngFeedback (v : Reg16) : Bool := xorBits (tap v [10, 12, 13, 15])

/-- `prng_clock(v) = (v', out)` (R161). -/
def prngClock (v : Reg16) : Reg16 × Bool := shiftIn v (prngFeedback v)

/-- The register after `n` clocks, the outputs discarded (R164). -/
def prngClockN : Nat → Reg16 → Reg16
  | 0, v => v
  | n + 1, v => prngClockN n (prngClock v).1

/-- `gen_nonce(seed, ticks) = (nonce, term)` (R164). -/
def genNonce (seed : Reg16) (ticks : BitVec 16) : Except ErrCode (Nonce32 × Reg16) := do
  require (ticks.toNat % Config.tickUnit == 0) .invalidTickCount
  require (seed != 0) .zeroSeed
  let first := prngClockN ticks.toNat seed
  let second := prngClockN Config.halfClocks first
  let term := prngClockN Config.halfClocks second
  return (first ++ second, term)

/-- The feedback of `suc` (R168): the source's taps, read as indices of the 32-bit nonce. -/
def sucFeedback (n : Nonce32) : Bool := xorBits (tap n [0, 2, 3, 5])

/-- `suc(n)` (R168). -/
def sucNonce (n : Nonce32) : Nonce32 := (shiftIn n (sucFeedback n)).1

/-- The pseudocode of PRNG_SEED (R170). -/
def prngSeedBody (ep : Endpoint) (data : Data48) (s : State) : Result := do
  gate s
  let seed ← operandData16 data
  require (seed != 0) .zeroSeed
  return (s.setPrng ep seed, 0)

/-- `PRNG_SEED.ep seed` (R170). -/
def execPrngSeed (ep : Endpoint) (data : Data48) (s : State) : Outcome :=
  answer .direct s (prngSeedBody ep data s)

/-- The pseudocode of PRNG_CLK (R171). -/
def prngClkBody (ep : Endpoint) (s : State) : Result := do
  gate s
  require ((s.prng.get ep).reg != 0) .zeroSeed
  let (v, out) := prngClock (s.prng.get ep).reg
  return (s.setPrng ep v, bitData out)

/-- `PRNG_CLK.ep` (R171). -/
def execPrngClk (ep : Endpoint) (s : State) : Outcome := answer .direct s (prngClkBody ep s)

/-- The pseudocode of PRNG_NONCE (R172). DEDUCED (assumption log 13): it does not read the old register,
so its immediate repeat gives the same result and state, as R172 and R317 say, although R67 lists it
among the commands that are not idempotent. -/
def prngNonceBody (ep : Endpoint) (data : Data48) (s : State) : Result := do
  gate s
  let (seed, ticks) ← operandNonceArgs data
  let (nonce, term) ← genNonce seed ticks
  return (s.setPrng ep term, zext48 nonce)

/-- `PRNG_NONCE.ep seed=s, ticks=t` (R172). -/
def execPrngNonce (ep : Endpoint) (data : Data48) (s : State) : Outcome :=
  answer .direct s (prngNonceBody ep data s)

/-- The pseudocode of PRNG_RDSTATE (R173), which is not gated. -/
def prngRdstateBody (ep : Endpoint) (s : State) : Result :=
  returnData s ((s.prng.get ep).reg.setWidth 48)

/-- `PRNG_RDSTATE.ep` (R173). -/
def execPrngRdstate (ep : Endpoint) (s : State) : Outcome := answer .pure s (prngRdstateBody ep s)

/-- The pseudocode of SUC (R174), which is not gated. -/
def sucBody (data : Data48) (s : State) : Result := do
  let n ← operandData32 data
  return (s, zext48 (sucNonce n))

/-- `SUC n` (R174). -/
def execSuc (data : Data48) (s : State) : Outcome := answer .pure s (sucBody data s)

end Sys2Proof.Machine
end

