-- ==== Sys2Proof/Machine/Session.lean ====
section
/-! DEFINITION. The authentication state machine and the session family: SET_UID, SET_KEY,
SET_SEED, SET_TICKS, SESSION_NEW, AUTH_STEP, WIRE_WR_*, RD_STATUS, RD_WIRE_* (44_auth_fsm.md). -/

namespace Sys2Proof.Machine

/-- The pseudocode of SET_UID (R223). -/
def setUidBody (data : Data48) (s : State) : Result := do
  gate s
  let u ← operandData32 data
  return ({ s with cfg := { s.cfg with uid := u } }, 0)

/-- `SET_UID u` (R223). -/
def execSetUid (data : Data48) (s : State) : Outcome := answer .config s (setUidBody data s)

/-- The pseudocode of SET_KEY (R224). -/
def setKeyBody (ep : Endpoint) (k : Data48) (s : State) : Result := do
  gate s
  return ({ s with cfg := { s.cfg with key := s.cfg.key.set ep (operandData48 k) } }, 0)

/-- `SET_KEY.ep k` (R224). -/
def execSetKey (ep : Endpoint) (k : Data48) (s : State) : Outcome :=
  answer .config s (setKeyBody ep k s)

/-- The pseudocode of SET_SEED (R225); a seed of 0 is stored. -/
def setSeedBody (ep : Endpoint) (data : Data48) (s : State) : Result := do
  gate s
  let v ← operandData16 data
  return ({ s with cfg := { s.cfg with seed := s.cfg.seed.set ep v } }, 0)

/-- `SET_SEED.ep s` (R225). -/
def execSetSeed (ep : Endpoint) (data : Data48) (s : State) : Outcome :=
  answer .config s (setSeedBody ep data s)

/-- The pseudocode of SET_TICKS (R226). -/
def setTicksBody (ep : Endpoint) (data : Data48) (s : State) : Result := do
  gate s
  let t ← operandData16 data
  require (t.toNat % Config.tickUnit == 0) .invalidTickCount
  return ({ s with cfg := { s.cfg with ticks := s.cfg.ticks.set ep t } }, 0)

/-- `SET_TICKS.ep t` (R226). -/
def execSetTicks (ep : Endpoint) (data : Data48) (s : State) : Outcome :=
  answer .config s (setTicksBody ep data s)

/-- The pseudocode of SESSION_NEW (R227). -/
def sessionNewBody (s : State) : Result := returnData s.freshSession 0

/-- `SESSION_NEW` (R227). -/
def execSessionNew (s : State) : Outcome := answer .new s (sessionNewBody s)

/-- The next 32 keystream bits of an engine, as a word that meets a wire value (R62, R233). -/
def wireKeystream (v : Reg48) : Reg48 × Nonce32 :=
  ((keystream v Config.wireBits).1, (keystream v Config.wireBits).2.setWidth 32)

/-- The value an endpoint loads: `zext_48(uid) ^ key ^ zext_48(Nt)` (R63, R230). -/
def loadValue (s : State) (ep : Endpoint) (nt : Nonce32) : Reg48 :=
  zext48 s.cfg.uid ^^^ s.cfg.key.get ep ^^^ zext48 nt

/-- T1, `Idle` to `NonceIssued` (R229). The `InvalidTickCount` of `gen_nonce` arises in no run
(DEDUCED, assumption log 12), here and in T2. -/
def transitionT1 (s : State) : Except ErrCode State := do
  let (nt, term) ← genNonce s.cfg.seed.tag s.cfg.ticks.tag
  return { s with
    prng := { s.prng with tag := ⟨term⟩ }
    lat := { s.lat with tagNt := nt }
    wire := { s.wire with nt := nt }
    fsm := { s.fsm with state := .nonceIssued } }

/-- T2, `NonceIssued` to `ChallengeSent` (R230): the keystream that encrypts `Nr` comes before
`mix_in(Nr)` (90_conflicts.md C2). -/
def transitionT2 (s : State) : Except ErrCode State := do
  let engT ← s.eng.tag.load (loadValue s .tag s.lat.tagNt)
  let rdrNt := s.wire.nt
  let engR ← s.eng.reader.load (loadValue s .reader rdrNt)
  let (nr, term) ← genNonce s.cfg.seed.reader s.cfg.ticks.reader
  let (v1, k1) := wireKeystream engR.reg
  let mixed ← (engR.withReg v1).mixIn (zext48 nr)
  let (v2, k2) := wireKeystream mixed.reg
  return { s with
    eng := ⟨engT, mixed.withReg v2⟩
    prng := { s.prng with reader := ⟨term⟩ }
    lat := { s.lat with rdrNt := rdrNt, rdrNr := nr }
    wire := { s.wire with nr := nr ^^^ k1, ar := sucNonce rdrNt ^^^ k2 }
    fsm := { s.fsm with state := .challengeSent } }

/-- T3, `ChallengeSent` to `ResponseVerified` (R231). The `NotPrimed` of `mix_in` arises in no run
(DEDUCED, assumption log 12). -/
def transitionT3 (s : State) : Except ErrCode State := do
  let (v1, k1) := wireKeystream s.eng.tag.reg
  let nr := s.wire.nr ^^^ k1
  let mixed ← (s.eng.tag.withReg v1).mixIn (zext48 nr)
  let (v2, k2) := wireKeystream mixed.reg
  require (s.wire.ar ^^^ k2 == sucNonce s.lat.tagNt) .authenticationFailed
  let (v3, k3) := wireKeystream v2
  return { s with
    eng := { s.eng with tag := mixed.withReg v3 }
    lat := { s.lat with tagNr := nr }
    wire := { s.wire with at_ := sucNonce (sucNonce s.lat.tagNt) ^^^ k3 }
    fsm := { s.fsm with state := .responseVerified } }

/-- T4, `ResponseVerified` to `Authenticated` (R232). -/
def transitionT4 (s : State) : Except ErrCode State := do
  let (v, k3) := wireKeystream s.eng.reader.reg
  require (s.wire.at_ ^^^ k3 == sucNonce (sucNonce s.lat.rdrNt)) .authenticationFailed
  require (s.eng.tag.reg == v) .desynchronizedState
  return { s with
    eng := { s.eng with reader := s.eng.reader.withReg v }
    fsm := { s.fsm with state := .authenticated } }

/-- The transition of a state (R220, R228). -/
def transition (s : State) : Except ErrCode State :=
  match s.fsm.state with
  | .idle => transitionT1 s
  | .nonceIssued => transitionT2 s
  | .challengeSent => transitionT3 s
  | .responseVerified => transitionT4 s
  | .authenticated | .failed => .error .protocolViolation

/-- The pseudocode of AUTH_STEP (R228): the result is the new state code. -/
def authStepBody (s : State) : Result := do
  let t ← transition s
  return (t, t.fsm.state.data)

/-- `AUTH_STEP` (R228). -/
def execAuthStep (s : State) : Outcome := answer .step s (authStepBody s)

/-- The four wire registers (R28). -/
inductive WireName where
  | nt
  | nr
  | ar
  | at_
deriving DecidableEq, Repr

/-- The state in which a wire value is in flight (R240). -/
def WireName.window : WireName → FsmState
  | .nt => .nonceIssued
  | .nr => .challengeSent
  | .ar => .challengeSent
  | .at_ => .responseVerified

/-- Reads a wire register. -/
def Wires.read (w : Wires) : WireName → Nonce32
  | .nt => w.nt
  | .nr => w.nr
  | .ar => w.ar
  | .at_ => w.at_

/-- Writes a wire register. -/
def Wires.write (w : Wires) (x : WireName) (v : Nonce32) : Wires :=
  match x with
  | .nt => { w with nt := v }
  | .nr => { w with nr := v }
  | .ar => { w with ar := v }
  | .at_ => { w with at_ := v }

/-- The pseudocode of the WIRE_WR commands (R241 to R244): the window comes before the width. -/
def wireWrBody (x : WireName) (data : Data48) (s : State) : Result := do
  require (s.fsm.state == x.window) .protocolViolation
  let v ← operandData32 data
  return ({ s with wire := s.wire.write x v }, 0)

/-- `WIRE_WR_NT v` (R241). -/
def execWireWrNt (data : Data48) (s : State) : Outcome := answer .wire s (wireWrBody .nt data s)

/-- `WIRE_WR_NR v` (R242). -/
def execWireWrNr (data : Data48) (s : State) : Outcome := answer .wire s (wireWrBody .nr data s)

/-- `WIRE_WR_AR v` (R243). -/
def execWireWrAr (data : Data48) (s : State) : Outcome := answer .wire s (wireWrBody .ar data s)

/-- `WIRE_WR_AT v` (R244). -/
def execWireWrAt (data : Data48) (s : State) : Outcome := answer .wire s (wireWrBody .at_ data s)

/-- The pseudocode of RD_STATUS (R239). -/
def rdStatusBody (s : State) : Result := returnData s (statusWord s)

/-- `RD_STATUS` (R239). -/
def execRdStatus (s : State) : Outcome := answer .pure s (rdStatusBody s)

/-- The pseudocode of the RD_WIRE commands (R245 to R248). -/
def rdWireBody (x : WireName) (s : State) : Result := returnData s (zext48 (s.wire.read x))

/-- `RD_WIRE_NT` (R245). -/
def execRdWireNt (s : State) : Outcome := answer .pure s (rdWireBody .nt s)

/-- `RD_WIRE_NR` (R246). -/
def execRdWireNr (s : State) : Outcome := answer .pure s (rdWireBody .nr s)

/-- `RD_WIRE_AR` (R247). -/
def execRdWireAr (s : State) : Outcome := answer .pure s (rdWireBody .ar s)

/-- `RD_WIRE_AT` (R248). -/
def execRdWireAt (s : State) : Outcome := answer .pure s (rdWireBody .at_ s)

end Sys2Proof.Machine
end

