-- ==== Sys2Proof/Machine/Dispatch.lean ====
section
/-! DEFINITION. One arm per command of the opcode map (30_encoding.md rule R85). -/

namespace Sys2Proof.Machine

def exec (i : Instr) (s : State) : Host.Outcome State Fault Refusal :=
  match i with
  | .nop => Sys2Proof.Machine.execNop s
  | .engReset ep => Sys2Proof.Machine.execEngReset ep s
  | .engLoad ep x => Sys2Proof.Machine.execEngLoad ep x s
  | .engMix ep x => Sys2Proof.Machine.execEngMix ep x s
  | .engClk ep iv ib => Sys2Proof.Machine.execEngClk ep iv ib s
  | .engKs ep n => Sys2Proof.Machine.execEngKs ep n s
  | .engRdstate ep => Sys2Proof.Machine.execEngRdstate ep s
  | .prngSeed ep data => Sys2Proof.Machine.execPrngSeed ep data s
  | .prngClk ep => Sys2Proof.Machine.execPrngClk ep s
  | .prngNonce ep data => Sys2Proof.Machine.execPrngNonce ep data s
  | .prngRdstate ep => Sys2Proof.Machine.execPrngRdstate ep s
  | .suc data => Sys2Proof.Machine.execSuc data s
  | .filter v => Sys2Proof.Machine.execFilter v s
  | .setUid data => Sys2Proof.Machine.execSetUid data s
  | .setKey ep k => Sys2Proof.Machine.execSetKey ep k s
  | .setSeed ep data => Sys2Proof.Machine.execSetSeed ep data s
  | .setTicks ep data => Sys2Proof.Machine.execSetTicks ep data s
  | .sessionNew => Sys2Proof.Machine.execSessionNew s
  | .authStep => Sys2Proof.Machine.execAuthStep s
  | .wireWrNt data => Sys2Proof.Machine.execWireWrNt data s
  | .wireWrNr data => Sys2Proof.Machine.execWireWrNr data s
  | .wireWrAr data => Sys2Proof.Machine.execWireWrAr data s
  | .wireWrAt data => Sys2Proof.Machine.execWireWrAt data s
  | .rdStatus => Sys2Proof.Machine.execRdStatus s
  | .rdWireNt => Sys2Proof.Machine.execRdWireNt s
  | .rdWireNr => Sys2Proof.Machine.execRdWireNr s
  | .rdWireAr => Sys2Proof.Machine.execRdWireAr s
  | .rdWireAt => Sys2Proof.Machine.execRdWireAt s

end Sys2Proof.Machine
end

