-- ==== Sys2Proof/WellFormed.lean ====
section
/-! DEFINITION. Which terms of `Instr` are commands of the block: those some word encodes. -/

namespace Sys2Proof

/-- The one check the types do not make: ENG_CLK with `IV = 0` must have `IB = 0`
(30_encoding.md rule R83). Every other operand field admits each of its values (R84). -/
def Instr.wf : Instr → Bool
  | .engClk _ iv ib => iv || !ib
  | .nop | .engReset _ | .engLoad _ _ | .engMix _ _ | .engKs _ _ | .engRdstate _
  | .prngSeed _ _ | .prngClk _ | .prngNonce _ _ | .prngRdstate _ | .suc _ | .filter _
  | .setUid _ | .setKey _ _ | .setSeed _ _ | .setTicks _ _ | .sessionNew | .authStep
  | .wireWrNt _ | .wireWrNr _ | .wireWrAr _ | .wireWrAt _
  | .rdStatus | .rdWireNt | .rdWireNr | .rdWireAr | .rdWireAt => true

/-- A command of the block (R83, R85). -/
abbrev Instr.WellFormed (i : Instr) : Prop := i.wf = true

end Sys2Proof
end

