-- ==== Sys2Proof/Decode.lean ====
section
/-! DEFINITION. The command word and its fields (30_encoding.md rules R80 to R84), the opcode
map (R85), the decoder and the encoder. A command is one 64-bit word (R88); it has no bytes
and no byte order. -/

namespace Sys2Proof

/-- `OP`, bits 63:56 (R80). -/
def opField (w : CmdWord) : BitVec 8 := w.extractLsb' 56 8

/-- `EP`, bit 55: 0 is the Tag, 1 the Reader (R80, R82). -/
def epField (w : CmdWord) : Endpoint := if w.getLsbD 55 then .reader else .tag

/-- `IV`, bit 49 (R80, R83). -/
def ivField (w : CmdWord) : Bool := w.getLsbD 49

/-- `IB`, bit 48 (R80, R83). -/
def ibField (w : CmdWord) : Bool := w.getLsbD 48

/-- `DATA`, bits 47:0 (R80, R84). -/
def dataField (w : CmdWord) : Data48 := w.extractLsb' 0 48

/-- One row of the opcode map (R85): the opcode, the fixed bits and where they stand, and the
command the row's fields make. -/
structure OpcodeRow where
  op : BitVec 8
  matchBits : CmdWord
  mask : CmdWord
  make : Endpoint → Bool → Bool → Data48 → Instr

/-- The control, engine, PRNG and filter rows of R85. -/
def datapathRows : List OpcodeRow :=
  [ ⟨0x00, 0x0000000000000000, 0xFFFFFFFFFFFFFFFF, fun _ _ _ _ => .nop⟩,
    ⟨0x10, 0x1000000000000000, 0xFF7FFFFFFFFFFFFF, fun ep _ _ _ => .engReset ep⟩,
    ⟨0x11, 0x1100000000000000, 0xFF7F000000000000, fun ep _ _ d => .engLoad ep d⟩,
    ⟨0x12, 0x1200000000000000, 0xFF7F000000000000, fun ep _ _ d => .engMix ep d⟩,
    ⟨0x13, 0x1300000000000000, 0xFF7CFFFFFFFFFFFF, fun ep iv ib _ => .engClk ep iv ib⟩,
    ⟨0x14, 0x1400000000000000, 0xFF7F000000000000, fun ep _ _ d => .engKs ep d⟩,
    ⟨0x15, 0x1500000000000000, 0xFF7FFFFFFFFFFFFF, fun ep _ _ _ => .engRdstate ep⟩,
    ⟨0x20, 0x2000000000000000, 0xFF7F000000000000, fun ep _ _ d => .prngSeed ep d⟩,
    ⟨0x21, 0x2100000000000000, 0xFF7FFFFFFFFFFFFF, fun ep _ _ _ => .prngClk ep⟩,
    ⟨0x22, 0x2200000000000000, 0xFF7F000000000000, fun ep _ _ d => .prngNonce ep d⟩,
    ⟨0x23, 0x2300000000000000, 0xFF7FFFFFFFFFFFFF, fun ep _ _ _ => .prngRdstate ep⟩,
    ⟨0x24, 0x2400000000000000, 0xFFFF000000000000, fun _ _ _ d => .suc d⟩,
    ⟨0x30, 0x3000000000000000, 0xFFFF000000000000, fun _ _ _ d => .filter d⟩ ]

/-- The session rows of R85. -/
def sessionRows : List OpcodeRow :=
  [ ⟨0x40, 0x4000000000000000, 0xFFFF000000000000, fun _ _ _ d => .setUid d⟩,
    ⟨0x41, 0x4100000000000000, 0xFF7F000000000000, fun ep _ _ d => .setKey ep d⟩,
    ⟨0x42, 0x4200000000000000, 0xFF7F000000000000, fun ep _ _ d => .setSeed ep d⟩,
    ⟨0x43, 0x4300000000000000, 0xFF7F000000000000, fun ep _ _ d => .setTicks ep d⟩,
    ⟨0x50, 0x5000000000000000, 0xFFFFFFFFFFFFFFFF, fun _ _ _ _ => .sessionNew⟩,
    ⟨0x51, 0x5100000000000000, 0xFFFFFFFFFFFFFFFF, fun _ _ _ _ => .authStep⟩,
    ⟨0x58, 0x5800000000000000, 0xFFFF000000000000, fun _ _ _ d => .wireWrNt d⟩,
    ⟨0x59, 0x5900000000000000, 0xFFFF000000000000, fun _ _ _ d => .wireWrNr d⟩,
    ⟨0x5A, 0x5A00000000000000, 0xFFFF000000000000, fun _ _ _ d => .wireWrAr d⟩,
    ⟨0x5B, 0x5B00000000000000, 0xFFFF000000000000, fun _ _ _ d => .wireWrAt d⟩,
    ⟨0x60, 0x6000000000000000, 0xFFFFFFFFFFFFFFFF, fun _ _ _ _ => .rdStatus⟩,
    ⟨0x61, 0x6100000000000000, 0xFFFFFFFFFFFFFFFF, fun _ _ _ _ => .rdWireNt⟩,
    ⟨0x62, 0x6200000000000000, 0xFFFFFFFFFFFFFFFF, fun _ _ _ _ => .rdWireNr⟩,
    ⟨0x63, 0x6300000000000000, 0xFFFFFFFFFFFFFFFF, fun _ _ _ _ => .rdWireAr⟩,
    ⟨0x64, 0x6400000000000000, 0xFFFFFFFFFFFFFFFF, fun _ _ _ _ => .rdWireAt⟩ ]

/-- The opcode map (R85). -/
def opcodeRows : List OpcodeRow := datapathRows ++ sessionRows

/-- Why a word encodes no command (R86). Each is answered with `IllegalCommand`. -/
inductive DecodeError where
  /-- The `OP` value is in no row of R85. -/
  | unassignedOpcode (op : BitVec 8)
  /-- A bit under the row's mask differs from its match: `RSV`, or a field the command does not
  read (R81 to R84). -/
  | fixedBitsDiffer (op : BitVec 8)
  /-- ENG_CLK with `IV = 0, IB = 1` (R83). -/
  | inputBitNotValid
deriving DecidableEq, Repr

/-- The row of R85 with this opcode. -/
def rowOf (op : BitVec 8) : Option OpcodeRow := opcodeRows.find? (fun r => r.op == op)

/-- The command a word makes under a row (R80, R85). -/
def OpcodeRow.instr (r : OpcodeRow) (w : CmdWord) : Instr :=
  r.make (epField w) (ivField w) (ibField w) (dataField w)

/-- `decode(w)` of R85. -/
def decode (w : CmdWord) : Except DecodeError Instr :=
  match rowOf (opField w) with
  | none => .error (.unassignedOpcode (opField w))
  | some r =>
    if w &&& r.mask = r.matchBits then
      if (r.instr w).wf then .ok (r.instr w) else .error .inputBitNotValid
    else .error (.fixedBitsDiffer (opField w))

/-- The host's question about one word: the first `nbits` bits of `w`, every higher bit 0. -/
def decodeTableWord (nbits w : Nat) : Option Instr :=
  (decode (BitVec.ofNat 64 (w % 2 ^ nbits))).toOption

/-- The bit `EP` of an endpoint (R82). -/
def Endpoint.bit : Endpoint → Bool
  | .tag => false
  | .reader => true

/-- The word with these fields, the highest first (R80). -/
def packWord (op : BitVec 8) (ep : Bool) (rsv : BitVec 5) (iv ib : Bool) (data : Data48) : CmdWord :=
  op ++ BitVec.ofBool ep ++ rsv ++ BitVec.ofBool iv ++ BitVec.ofBool ib ++ data

/-- A command that reads `EP` and `DATA` only. -/
def packEp (op : BitVec 8) (ep : Endpoint) (data : Data48) : CmdWord :=
  packWord op ep.bit 0 false false data

/-- A command that reads `DATA` only. -/
def packData (op : BitVec 8) (data : Data48) : CmdWord := packWord op false 0 false false data

/-- The word of a well-formed command (R80 to R85). -/
def encode : Instr → CmdWord
  | .nop => packData 0x00 0
  | .engReset ep => packEp 0x10 ep 0
  | .engLoad ep x => packEp 0x11 ep x
  | .engMix ep x => packEp 0x12 ep x
  | .engClk ep iv ib => packWord 0x13 ep.bit 0 iv ib 0
  | .engKs ep n => packEp 0x14 ep n
  | .engRdstate ep => packEp 0x15 ep 0
  | .prngSeed ep d => packEp 0x20 ep d
  | .prngClk ep => packEp 0x21 ep 0
  | .prngNonce ep d => packEp 0x22 ep d
  | .prngRdstate ep => packEp 0x23 ep 0
  | .suc d => packData 0x24 d
  | .filter v => packData 0x30 v
  | .setUid d => packData 0x40 d
  | .setKey ep k => packEp 0x41 ep k
  | .setSeed ep d => packEp 0x42 ep d
  | .setTicks ep d => packEp 0x43 ep d
  | .sessionNew => packData 0x50 0
  | .authStep => packData 0x51 0
  | .wireWrNt d => packData 0x58 d
  | .wireWrNr d => packData 0x59 d
  | .wireWrAr d => packData 0x5A d
  | .wireWrAt d => packData 0x5B d
  | .rdStatus => packData 0x60 0
  | .rdWireNt => packData 0x61 0
  | .rdWireNr => packData 0x62 0
  | .rdWireAr => packData 0x63 0
  | .rdWireAt => packData 0x64 0

end Sys2Proof
end

