-- ==== Sys2Proof/Machine/Input.lean ====
section
/-! DEFINITION. How the next command reaches the block. The block has no program counter and
fetches no instructions (10_state.md rule R33): the host delivers one command word at a time
(30_encoding.md rule R80), and asserts or releases the reset input between commands
(70_reset_and_hazards.md rule R310). -/

namespace Sys2Proof.Machine

/-- What the next host event comes to: a state reached without running a command, or a command to
run. -/
inductive Delivered where
  | settled (t : State)
  | run (i : Instr) (t : State)
deriving DecidableEq, Repr

/-- The state with the first event of the host taken. -/
def State.takeEvent (s : State) : State :=
  { s with host := { s.host with pending := s.host.pending.tail } }

/-- The state with the reset input at this level. -/
def State.withResetInput (s : State) (asserted : Bool) : State :=
  { s with host := { s.host with resetAsserted := asserted } }

/-- A command word arrives: it is not executed and gets no response while reset is asserted (R310);
a word that decodes to no command is answered `IllegalCommand` (R86). -/
def deliverCommand (w : CmdWord) (s : State) : Delivered :=
  if s.host.resetAsserted then .settled s
  else
    match decode w with
    | .ok i => .run i s
    | .error _ => .settled s.answerIllegal

/-- The next event: none, and the block holds its state unchanged (R294, R310); reset; or a command
word. -/
def deliver (s : State) : Delivered :=
  match s.host.pending with
  | [] => .settled s
  | .assertReset :: _ => .settled (s.takeEvent.hardwareReset.withResetInput true)
  | .releaseReset :: _ => .settled (s.takeEvent.withResetInput false)
  | .command w :: _ => deliverCommand w s.takeEvent

/-- The host is about to send the word of the first `nbits` bits of `w`, reset not asserted. -/
def State.sendNext (s : State) (nbits w : Nat) : State :=
  { s with host := { s.host with
      pending := .command (BitVec.ofNat 64 (w % 2 ^ nbits)) :: s.host.pending
      resetAsserted := false } }

end Sys2Proof.Machine
end

