-- ==== Sys2Proof/Machine/Step.lean ====
section
/-! DEFINITION. One step of the block: one event of the host, and one command whole where the event
is a command (20_memory.md rules R66 and R69). -/

namespace Sys2Proof.Machine

/-- One step. -/
def step (s : State) : Host.Outcome State Fault Refusal :=
  match deliver s with
  | .settled t => .next t
  | .run i t => exec i t

/-- The state whose next step receives the word `w` (assumption log 3). -/
def State.withFetchWord (s : State) (nbits w : Nat) : State := s.sendNext nbits w

end Sys2Proof.Machine
end

