-- ==== Sys2Proof/Safety.lean ====
section
/-! DEFINITION. The terms claims are stated in: what an answer is, where a handshake stands, which
command a term is, and the invariant of the block. They are written from the spec's own words and
not from the model's operations, so that a claim stated in them says something about those. -/

namespace Sys2Proof.Safety

open Sys2Proof Sys2Proof.Machine

/-- The host's side with one more response (R87). -/
def answered (h : HostPort) (e : ErrCode) (data : Data48) : HostPort :=
  { h with responses := h.responses ++ [⟨e, data⟩] }

/-- The answer `{ OK, data }` of a command that changes no state (R67, R87). -/
def readsAs (s : State) (data : Data48) : State := { s with host := answered s.host .ok data }

/-- The answer `{ E, 0 }` of a command that changes no state (R281, R282). -/
def refusedWith (s : State) (e : ErrCode) : State := { s with host := answered s.host e 0 }

/-- The answer `{ E, 0 }` of a command whose error enters `Failed` (R281 to R283). -/
def failsWith (s : State) (e : ErrCode) : State :=
  { s with fsm := ⟨.failed, e⟩, host := answered s.host e 0 }

/-- Outside a handshake (R220): `Idle`, `Authenticated` or `Failed`. -/
abbrev Outside (s : State) : Prop :=
  s.fsm.state = .idle ∨ s.fsm.state = .authenticated ∨ s.fsm.state = .failed

/-- In handshake (R220): `NonceIssued`, `ChallengeSent` or `ResponseVerified`. -/
abbrev InHandshake (s : State) : Prop :=
  s.fsm.state = .nonceIssued ∨ s.fsm.state = .challengeSent ∨ s.fsm.state = .responseVerified

/-- A terminal state (R220): `Authenticated` or `Failed`. -/
abbrev Terminal (s : State) : Prop := s.fsm.state = .authenticated ∨ s.fsm.state = .failed

/-- Two states of the machine with the same state of the block (R20). -/
abbrev SameBlock (s t : State) : Prop :=
  s.eng = t.eng ∧ s.prng = t.prng ∧ s.cfg = t.cfg ∧ s.wire = t.wire ∧ s.lat = t.lat ∧ s.fsm = t.fsm

/-- The response of the last command answered. -/
def lastResponse (s : State) : Option Response := s.host.responses.getLast?

/-- The mnemonic of a command, as the opcode map spells it (R85). -/
def mnemonic : Instr → String
  | .nop => "NOP"
  | .engReset _ => "ENG_RESET"
  | .engLoad _ _ => "ENG_LOAD"
  | .engMix _ _ => "ENG_MIX"
  | .engClk _ _ _ => "ENG_CLK"
  | .engKs _ _ => "ENG_KS"
  | .engRdstate _ => "ENG_RDSTATE"
  | .prngSeed _ _ => "PRNG_SEED"
  | .prngClk _ => "PRNG_CLK"
  | .prngNonce _ _ => "PRNG_NONCE"
  | .prngRdstate _ => "PRNG_RDSTATE"
  | .suc _ => "SUC"
  | .filter _ => "FILTER"
  | .setUid _ => "SET_UID"
  | .setKey _ _ => "SET_KEY"
  | .setSeed _ _ => "SET_SEED"
  | .setTicks _ _ => "SET_TICKS"
  | .sessionNew => "SESSION_NEW"
  | .authStep => "AUTH_STEP"
  | .wireWrNt _ => "WIRE_WR_NT"
  | .wireWrNr _ => "WIRE_WR_NR"
  | .wireWrAr _ => "WIRE_WR_AR"
  | .wireWrAt _ => "WIRE_WR_AT"
  | .rdStatus => "RD_STATUS"
  | .rdWireNt => "RD_WIRE_NT"
  | .rdWireNr => "RD_WIRE_NR"
  | .rdWireAr => "RD_WIRE_AR"
  | .rdWireAt => "RD_WIRE_AT"

/-- The opcode map (R85) as the spec's table gives it: mnemonic, match, mask. -/
def opcodeMap : List (String × CmdWord × CmdWord) :=
  [ ("NOP", 0x0000000000000000, 0xFFFFFFFFFFFFFFFF),
    ("ENG_RESET", 0x1000000000000000, 0xFF7FFFFFFFFFFFFF),
    ("ENG_LOAD", 0x1100000000000000, 0xFF7F000000000000),
    ("ENG_MIX", 0x1200000000000000, 0xFF7F000000000000),
    ("ENG_CLK", 0x1300000000000000, 0xFF7CFFFFFFFFFFFF),
    ("ENG_KS", 0x1400000000000000, 0xFF7F000000000000),
    ("ENG_RDSTATE", 0x1500000000000000, 0xFF7FFFFFFFFFFFFF),
    ("PRNG_SEED", 0x2000000000000000, 0xFF7F000000000000),
    ("PRNG_CLK", 0x2100000000000000, 0xFF7FFFFFFFFFFFFF),
    ("PRNG_NONCE", 0x2200000000000000, 0xFF7F000000000000),
    ("PRNG_RDSTATE", 0x2300000000000000, 0xFF7FFFFFFFFFFFFF),
    ("SUC", 0x2400000000000000, 0xFFFF000000000000),
    ("FILTER", 0x3000000000000000, 0xFFFF000000000000),
    ("SET_UID", 0x4000000000000000, 0xFFFF000000000000) ] ++
  [ ("SET_KEY", 0x4100000000000000, 0xFF7F000000000000),
    ("SET_SEED", 0x4200000000000000, 0xFF7F000000000000),
    ("SET_TICKS", 0x4300000000000000, 0xFF7F000000000000),
    ("SESSION_NEW", 0x5000000000000000, 0xFFFFFFFFFFFFFFFF),
    ("AUTH_STEP", 0x5100000000000000, 0xFFFFFFFFFFFFFFFF),
    ("WIRE_WR_NT", 0x5800000000000000, 0xFFFF000000000000),
    ("WIRE_WR_NR", 0x5900000000000000, 0xFFFF000000000000),
    ("WIRE_WR_AR", 0x5A00000000000000, 0xFFFF000000000000),
    ("WIRE_WR_AT", 0x5B00000000000000, 0xFFFF000000000000),
    ("RD_STATUS", 0x6000000000000000, 0xFFFFFFFFFFFFFFFF),
    ("RD_WIRE_NT", 0x6100000000000000, 0xFFFFFFFFFFFFFFFF),
    ("RD_WIRE_NR", 0x6200000000000000, 0xFFFFFFFFFFFFFFFF),
    ("RD_WIRE_AR", 0x6300000000000000, 0xFFFFFFFFFFFFFFFF),
    ("RD_WIRE_AT", 0x6400000000000000, 0xFFFFFFFFFFFFFFFF) ]

/-- The class of every command, as R221 lists them. -/
def classOf : Instr → CommandClass
  | .nop | .engRdstate _ | .prngRdstate _ | .suc _ | .filter _ | .rdStatus
  | .rdWireNt | .rdWireNr | .rdWireAr | .rdWireAt => .pure
  | .engReset _ | .engLoad _ _ | .engMix _ _ | .engClk _ _ _ | .engKs _ _
  | .prngSeed _ _ | .prngClk _ | .prngNonce _ _ => .direct
  | .setUid _ | .setKey _ _ | .setSeed _ _ | .setTicks _ _ => .config
  | .sessionNew => .new
  | .authStep => .step
  | .wireWrNt _ | .wireWrNr _ | .wireWrAr _ | .wireWrAt _ => .wire

/-- What the rules say always holds of the block:
the tick counts are multiples of 16 (R27); `fsm.fail` is `OK` exactly outside `Failed` (R31), and
never holds a code that no failure entry gives (R283); a wire value and a latch is 0 before the
transition that writes it (R227, R245 to R248); both engines are primed once T2 has run (R231). -/
structure Sound (s : State) : Prop where
  ticks : s.cfg.ticks.tag.toNat % 16 = 0 ∧ s.cfg.ticks.reader.toNat % 16 = 0
  fail_ok : s.fsm.fail = .ok ↔ s.fsm.state ≠ .failed
  fail_code : s.fsm.fail ≠ .illegalCommand ∧ s.fsm.fail ≠ .notPrimed
  before_t1 : s.fsm.state = .idle → s.wire = ⟨0, 0, 0, 0⟩ ∧ s.lat = ⟨0, 0, 0, 0⟩
  before_t2 : s.fsm.state = .nonceIssued →
    s.wire.nr = 0 ∧ s.wire.ar = 0 ∧ s.lat.rdrNt = 0 ∧ s.lat.rdrNr = 0
  before_t3 : s.fsm.state = .nonceIssued ∨ s.fsm.state = .challengeSent →
    s.wire.at_ = 0 ∧ s.lat.tagNr = 0
  primed : s.fsm.state = .challengeSent ∨ s.fsm.state = .responseVerified →
    s.eng.tag.primed = true ∧ s.eng.reader.primed = true

/-- The next event of the host is a word of the command `i`, which reaches the block. -/
def Receives (s : State) (i : Instr) : Prop :=
  ∃ w rest, s.host.pending = .command w :: rest ∧ s.host.resetAsserted = false ∧ decode w = .ok i

/-- The word `w` is answered `IllegalCommand` and changes no state of the block (R86). -/
def AnsweredIllegal (w : CmdWord) : Prop :=
  ∀ (s : State) (rest : List HostEvent),
    s.host.pending = .command w :: rest → s.host.resetAsserted = false →
    step s = .next (refusedWith { s with host := { s.host with pending := rest } } .illegalCommand)

/-- A word that matches a row (R85) decodes to the row's command, with `ep` from bit 55 (R82) and the
operand from bits 47:0 (R84); a word of the same `OP` that does not match is illegal (R86). -/
def Encodes (matchBits mask : CmdWord) (make : Endpoint → Data48 → Instr) : Prop :=
  ∀ w : CmdWord,
    (w &&& mask = matchBits →
      decode w = .ok (make (if w.getLsbD 55 then .reader else .tag) (w.extractLsb' 0 48)))
    ∧ (w.extractLsb' 56 8 = matchBits.extractLsb' 56 8 → w &&& mask ≠ matchBits →
      AnsweredIllegal w)

/-- The `OP` values in no row of the opcode map, as R86 lists them. -/
abbrev unassignedOpcode (op : Nat) : Prop :=
  (0x01 ≤ op ∧ op ≤ 0x0F) ∨ (0x16 ≤ op ∧ op ≤ 0x1F) ∨ (0x25 ≤ op ∧ op ≤ 0x2F)
    ∨ (0x31 ≤ op ∧ op ≤ 0x3F) ∨ (0x44 ≤ op ∧ op ≤ 0x4F) ∨ (0x52 ≤ op ∧ op ≤ 0x57)
    ∨ (0x5C ≤ op ∧ op ≤ 0x5F) ∨ (0x65 ≤ op ∧ op ≤ 0xFF)

/-- An engine command, for either endpoint: the operations R197 speaks of. -/
def isEngineCommand (f : Endpoint → Instr) : Prop :=
  f = .engReset ∨ (∃ x, f = (.engLoad · x)) ∨ (∃ x, f = (.engMix · x))
    ∨ (∃ iv ib, f = (.engClk · iv ib)) ∨ (∃ n, f = (.engKs · n))

/-- Runs commands one after the other (R69). -/
def runCommands : List Instr → State → Outcome
  | [], s => .next s
  | i :: is, s =>
    match exec i s with
    | .next t => runCommands is t
    | .fault r => .fault r
    | .refused r => .refused r

/-- The start of an honest handshake (R234): `Idle`, both engines unprimed, both seeds non-zero,
both tick counts multiples of 16 (R27). The keys are spoken of by each claim. -/
structure Ready (s : State) : Prop where
  idle : s.fsm.state = .idle
  unprimed : s.eng.tag.primed = false ∧ s.eng.reader.primed = false
  seeds : s.cfg.seed.tag ≠ 0 ∧ s.cfg.seed.reader ≠ 0
  ticks : s.cfg.ticks.tag.toNat % 16 = 0 ∧ s.cfg.ticks.reader.toNat % 16 = 0

end Sys2Proof.Safety
end

