-- ==== Sys2Proof/Certificates/Slice0/Obligations.lean ====
section
/-! DEFINITION. The statements for the provers, in the order of the spec's files: encoding, reset and
the step (30, 70), Bit Register (40), filter (41), PRNG (42), engine (43), authentication state
machine (44), errors and whole-machine rules (10, 60, 70). -/

open Sys2Proof Sys2Proof.Machine Sys2Proof.Safety

/-! ## Encoding -/

/-- The decoder undoes the encoder: no bit of an operand is dropped (R80, R82 to R85). -/
def Obligations.DecodeUndoesEncode : Prop :=
  ∀ i : Instr, i.WellFormed → decode (encode i) = .ok i

/-- Each word has one meaning (R85, R88): a word that decodes is the word of its command. -/
def Obligations.EncodeUndoesDecode : Prop :=
  ∀ (w : CmdWord) (i : Instr), decode w = .ok i → i.WellFormed ∧ encode i = w

/-- R85: for every row of the opcode map, the words of the row's command are exactly those the row
matches, less ENG_CLK's words with `IV = 0, IB = 1`. -/
def Obligations.WordsOfARowMatchUnderItsMask : Prop :=
  ∀ row ∈ opcodeMap, ∀ w : CmdWord,
    (∃ i, decode w = .ok i ∧ mnemonic i = row.1) ↔
      w &&& row.2.2 = row.2.1
        ∧ ¬ (row.1 = "ENG_CLK" ∧ w.getLsbD 49 = false ∧ w.getLsbD 48 = true)

/-- R86 and R283: a word whose `OP` is one of the rule's unassigned values, a word no row of the opcode
map matches, and an ENG_CLK word with `IV = 0, IB = 1`, is answered `IllegalCommand` and changes no
state of the block, not even `fsm`. -/
def Obligations.IllegalWordsChangeNothing : Prop :=
  ∀ w : CmdWord,
    (unassignedOpcode (w.extractLsb' 56 8).toNat
      ∨ (∀ row ∈ opcodeMap, w &&& row.2.2 ≠ row.2.1)
      ∨ (w.extractLsb' 56 8 = 0x13 ∧ w.getLsbD 49 = false ∧ w.getLsbD 48 = true)) →
    AnsweredIllegal w

/-- R80, R82, R83, R84: the encoded words as numbers, the fields where the format puts them. -/
def Obligations.EncodedFieldsStandWhereTheFormatPutsThem : Prop :=
  (∀ (ep : Endpoint) (x : Data48) (iv ib : Bool),
    let e : CmdWord := match ep with | .tag => 0 | .reader => 0x0080000000000000
    let d : CmdWord := x.setWidth 64
    encode (.engReset ep) = 0x1000000000000000 ||| e
    ∧ encode (.engLoad ep x) = 0x1100000000000000 ||| e ||| d
    ∧ encode (.engMix ep x) = 0x1200000000000000 ||| e ||| d
    ∧ encode (.engClk ep iv ib) = 0x1300000000000000 ||| e
        ||| (if iv then 0x0002000000000000 else 0) ||| (if ib then 0x0001000000000000 else 0)
    ∧ encode (.engKs ep x) = 0x1400000000000000 ||| e ||| d
    ∧ encode (.engRdstate ep) = 0x1500000000000000 ||| e
    ∧ encode (.prngSeed ep x) = 0x2000000000000000 ||| e ||| d
    ∧ encode (.prngClk ep) = 0x2100000000000000 ||| e
    ∧ encode (.prngNonce ep x) = 0x2200000000000000 ||| e ||| d
    ∧ encode (.prngRdstate ep) = 0x2300000000000000 ||| e
    ∧ encode (.setKey ep x) = 0x4100000000000000 ||| e ||| d
    ∧ encode (.setSeed ep x) = 0x4200000000000000 ||| e ||| d
    ∧ encode (.setTicks ep x) = 0x4300000000000000 ||| e ||| d)
  ∧ (∀ x : Data48,
    let d : CmdWord := x.setWidth 64
    encode (.suc x) = 0x2400000000000000 ||| d
    ∧ encode (.filter x) = 0x3000000000000000 ||| d
    ∧ encode (.setUid x) = 0x4000000000000000 ||| d
    ∧ encode (.wireWrNt x) = 0x5800000000000000 ||| d
    ∧ encode (.wireWrNr x) = 0x5900000000000000 ||| d
    ∧ encode (.wireWrAr x) = 0x5A00000000000000 ||| d
    ∧ encode (.wireWrAt x) = 0x5B00000000000000 ||| d)

/-- Words of the spec's rules decode to the commands they stand for (R89, R170 to R172, R202, R224,
R241), and the spec's undecodable words to nothing (R83, R84, R82). -/
def Obligations.SampleWordsDecode : Prop :=
  decode 0x0000000000000000 = .ok .nop
  ∧ decode 0x110000A03DB1A8C0 = .ok (.engLoad .tag 0x00A03DB1A8C0)
  ∧ decode 0x1383000000000000 = .ok (.engClk .reader true true)
  ∧ decode 0x2200000000A0104A = .ok (.prngNonce .tag 0x00A0104A)
  ∧ decode 0x418000A0B1C2D3F4 = .ok (.setKey .reader 0x00A0B1C2D3F4)
  ∧ decode 0x580000004EDB56C2 = .ok (.wireWrNt 0x4EDB56C2)
  ∧ decode 0x4000000100000000 = .ok (.setUid 0x100000000)
  ∧ (decode 0x0000000000000001).toOption = none
  ∧ (decode 0x0004000000000000).toOption = none
  ∧ (decode 0x2480000000000001).toOption = none
  ∧ (decode 0x1301000000000000).toOption = none

/-! ## The step, the host and reset -/

/-- R69, R80: the step that receives a word which decodes to a command runs that command, on the
state with the word taken from the host (log entry 1). -/
def Obligations.StepRunsTheDecodedCommand : Prop :=
  ∀ (s : State) (w : CmdWord) (rest : List HostEvent) (i : Instr),
    s.host.pending = .command w :: rest → s.host.resetAsserted = false → decode w = .ok i →
    step s = exec i { s with host := { s.host with pending := rest } }

/-- R294: with no command the block holds its state unchanged; the model's step then changes nothing at
all (log entry 1). The model's reading of R310 (log entry 2): the reset input is a level, and
releasing it changes no state of the block. -/
def Obligations.StepWithoutACommandHoldsTheBlock : Prop :=
  (∀ s : State, s.host.pending = [] → step s = .next s)
  ∧ (∀ (s : State) (rest : List HostEvent), s.host.pending = .releaseReset :: rest →
      step s = .next { s with host := { s.host with pending := rest, resetAsserted := false } })

/-- R310, R311: reset may be asserted in any state, and puts every piece of the block's state into
its reset value; a command that arrives while it is asserted is not executed and gets no
response. The events of the reset input are the model's (log entry 2). -/
def Obligations.HardwareResetPutsEveryRegisterToItsResetValue : Prop :=
  (∀ (s : State) (rest : List HostEvent), s.host.pending = .assertReset :: rest →
    step s = .next
      { eng := ⟨⟨0, false⟩, ⟨0, false⟩⟩, prng := ⟨⟨0⟩, ⟨0⟩⟩
        cfg := ⟨0, ⟨0, 0⟩, ⟨0, 0⟩, ⟨0, 0⟩⟩, wire := ⟨0, 0, 0, 0⟩, lat := ⟨0, 0, 0, 0⟩
        fsm := ⟨.idle, .ok⟩
        host := { s.host with pending := rest, resetAsserted := true } })
  ∧ (∀ (s : State) (w : CmdWord) (rest : List HostEvent),
    s.host.pending = .command w :: rest → s.host.resetAsserted = true →
    step s = .next { s with host := { s.host with pending := rest } })

/-- R311: the reset state, and RD_STATUS returning 0 in it. -/
def Obligations.ResetStateHoldsTheSpecsValues : Prop :=
  State.reset.eng = ⟨⟨0, false⟩, ⟨0, false⟩⟩ ∧ State.reset.prng = ⟨⟨0⟩, ⟨0⟩⟩
  ∧ State.reset.cfg = ⟨0, ⟨0, 0⟩, ⟨0, 0⟩, ⟨0, 0⟩⟩ ∧ State.reset.wire = ⟨0, 0, 0, 0⟩
  ∧ State.reset.lat = ⟨0, 0, 0, 0⟩ ∧ State.reset.fsm = ⟨.idle, .ok⟩
  ∧ exec .rdStatus State.reset = .next (readsAs State.reset 0)

/-- R285, R287: an error completes the command that raised it, and the next command runs normally.
That the machine stops nowhere is the model's reading (log entry 6), and that a step without an event
of the host answers a next state is its choice (log entry 1). -/
def Obligations.EveryStepAnswersANextState : Prop := ∀ s : State, ∃ t : State, step s = .next t

/-- R69, R87: a command answers one response and takes nothing from the host; so every response is
given, in order, before the next word is taken. -/
def Obligations.EveryCommandGivesOneResponse : Prop :=
  ∀ (i : Instr) (s t : State), exec i s = .next t →
    ∃ r : Response, t.host = { s.host with responses := s.host.responses ++ [r] }
      ∧ (r.err ≠ .ok → r.data = 0)

/-! ## Bit Register -/

/-- R121 at every width, in integer bits (register index `i` is integer bit `N-1-i`, R60). -/
def Obligations.ShiftInMovesEveryIndexUpByOne : Prop :=
  ∀ (n : Nat) (v : BitVec (n + 1)) (b : Bool),
    (shiftIn v b).2 = v.getLsbD 0
    ∧ (shiftIn v b).1.getLsbD n = b
    ∧ ∀ i, i < n → (shiftIn v b).1.getLsbD i = v.getLsbD (i + 1)

/-- R124: `from_integer` accepts exactly the values that fit, and keeps them (R125). -/
def Obligations.FromIntegerAcceptsWhatFits : Prop :=
  ∀ (width : Nat) (v : Data48),
    (v.toNat < 2 ^ width → ∃ x, fromInteger width v = .ok x ∧ x.toNat = v.toNat)
    ∧ (2 ^ width ≤ v.toNat → fromInteger width v = .error .invalidWidth)

/-! ## Filter -/

/-- The truth tables of the three sub-functions (R140, R141, R142), and the one-hot values of the
filter: from the zero register, one index alone gives 1 for indices 9, 11 and 45 only (R146). -/
def Obligations.FilterTruthTables : Prop :=
  (∀ a b c d : Bool,
    fA a b c d = (0xD938 : BitVec 16).getLsbD (8 * a.toNat + 4 * b.toNat + 2 * c.toNat + d.toNat)
    ∧ fB a b c d = (0xF22C : BitVec 16).getLsbD (8 * a.toNat + 4 * b.toNat + 2 * c.toNat + d.toNat))
  ∧ (∀ a b c d e : Bool, fC a b c d e =
      (0xDFD76622 : BitVec 32).getLsbD
        (16 * a.toNat + 8 * b.toNat + 4 * c.toNat + 2 * d.toNat + e.toNat))
  ∧ (∀ i, i < 48 → (filterBit (1#48 <<< (47 - i)) = true ↔ i = 9 ∨ i = 11 ∨ i = 45))

/-- R143, R146: FILTER returns `F` of its operand, whose inputs are the even integer bits from 38
down to 0, and changes no state, whatever the state. -/
def Obligations.FilterCommandReturnsF : Prop :=
  Encodes 0x3000000000000000 0xFFFF000000000000 (fun _ d => .filter d)
  ∧ ∀ (v : Data48) (s : State), exec (.filter v) s = .next (readsAs s
    (if fC (fA (v.getLsbD 38) (v.getLsbD 36) (v.getLsbD 34) (v.getLsbD 32))
           (fB (v.getLsbD 30) (v.getLsbD 28) (v.getLsbD 26) (v.getLsbD 24))
           (fB (v.getLsbD 22) (v.getLsbD 20) (v.getLsbD 18) (v.getLsbD 16))
           (fA (v.getLsbD 14) (v.getLsbD 12) (v.getLsbD 10) (v.getLsbD 8))
           (fB (v.getLsbD 6) (v.getLsbD 4) (v.getLsbD 2) (v.getLsbD 0)) then 1 else 0))

/-- R145: `F` reads register indices 9, 11, ..., 47 and no other; so the keystream bit of a clock
depends only on indices 8, 10, ..., 46 of the register before the shift, and not on the input bit or
the feedback bit of that clock. -/
def Obligations.FilterReadsOnlyTheOddIndicesFromNine : Prop :=
  (∀ v w : Reg48, (∀ i, 9 ≤ i → i ≤ 47 → i % 2 = 1 → idx v i = idx w i) →
    filterBit v = filterBit w)
  ∧ (∀ (v w : Reg48) (a b : Option Bool),
    (∀ i, 8 ≤ i → i ≤ 46 → i % 2 = 0 → idx v i = idx w i) → (engClock v a).2 = (engClock w b).2)

/-! ## PRNG -/

/-- R160, R161: a clock shifts in the XOR of indices 10, 12, 13 and 15 (integer bits 5, 3, 2, 0) and
returns the bit it discards. -/
def Obligations.PrngClockFeedsBackItsFourTaps : Prop :=
  ∀ v : Reg16, (prngClock v).2 = v.getLsbD 0
    ∧ (prngClock v).1.getLsbD 15
        = (v.getLsbD 5 ^^ (v.getLsbD 3 ^^ (v.getLsbD 2 ^^ v.getLsbD 0)))
    ∧ ∀ i, i < 15 → (prngClock v).1.getLsbD i = v.getLsbD (i + 1)

/-- R163: started from any non-zero value, the register's cycle has period 65535 and never visits the
all-zero state; every non-zero value lies on that one cycle; the clock is a bijection. -/
def Obligations.PrngCycleHasPeriod65535 : Prop :=
  (∀ v : Reg16, v ≠ 0 →
    prngClockN 65535 v = v ∧ (∀ n, 0 < n → n < 65535 → prngClockN n v ≠ v)
    ∧ ∀ n, prngClockN n v ≠ 0)
  ∧ (∀ v w : Reg16, v ≠ 0 → w ≠ 0 → ∃ n, n < 65535 ∧ prngClockN n v = w)
  ∧ Function.Bijective (fun v : Reg16 => (prngClock v).1)

/-- R162, R163: a PRNG register that holds a non-zero value holds one after every step, but for the
hardware reset; so `ZeroSeed` arises only from a zero seed or the reset value. -/
def Obligations.NonZeroPrngStaysNonZero : Prop :=
  ∀ (s t : State) (ep : Endpoint), s.host.pending.head? ≠ some .assertReset → step s = .next t →
    (s.prng.get ep).reg ≠ 0 → (t.prng.get ep).reg ≠ 0

/-- R165: the sixteen outputs of sixteen clocks, the first at integer bit 0, are the register's value
before them. -/
def Obligations.SixteenOutputsAreTheRegister : Prop :=
  ∀ (v : Reg16) (k : Nat), k < 16 → (prngClock (prngClockN k v)).2 = v.getLsbD k

/-- R164, R166, R167: `gen_nonce` raises `InvalidTickCount` first and `ZeroSeed` second; else the
nonce's first (high) half is the seed after the tick clocks, its second half is sixteen clocks of the
first, and the register left is sixteen clocks of the second. -/
def Obligations.SecondNonceHalfIsSixteenClocksOfTheFirst : Prop :=
  ∀ (seed : Reg16) (ticks : BitVec 16),
    (ticks.toNat % 16 ≠ 0 → genNonce seed ticks = .error .invalidTickCount)
    ∧ (ticks.toNat % 16 = 0 → seed = 0 → genNonce seed ticks = .error .zeroSeed)
    ∧ (ticks.toNat % 16 = 0 → seed ≠ 0 → ∃ nonce term, genNonce seed ticks = .ok (nonce, term)
      ∧ nonce.extractLsb' 16 16 = prngClockN ticks.toNat seed
      ∧ nonce.extractLsb' 0 16 = prngClockN 16 (nonce.extractLsb' 16 16)
      ∧ term = prngClockN 16 (nonce.extractLsb' 0 16))

/-- R170: PRNG_SEED. -/
def Obligations.PrngSeedLoadsTheRegister : Prop :=
  Encodes 0x2000000000000000 0xFF7F000000000000 (fun ep d => .prngSeed ep d)
  ∧ ∀ (ep : Endpoint) (data : Data48) (s : State),
    (Outside s → data.toNat < 2 ^ 16 → data ≠ 0 →
      exec (.prngSeed ep data) s = .next { s with
        prng := s.prng.set ep ⟨data.setWidth 16⟩, host := answered s.host .ok 0 })
    ∧ (InHandshake s → exec (.prngSeed ep data) s = .next (failsWith s .protocolViolation))
    ∧ (Outside s → 2 ^ 16 ≤ data.toNat →
        exec (.prngSeed ep data) s = .next (refusedWith s .invalidWidth))
    ∧ (Outside s → data = 0 → exec (.prngSeed ep data) s = .next (refusedWith s .zeroSeed))

/-- R171: PRNG_CLK, the result being the discarded bit `v[0]` of the old value. -/
def Obligations.PrngClkClocksOnce : Prop :=
  Encodes 0x2100000000000000 0xFF7FFFFFFFFFFFFF (fun ep _ => .prngClk ep)
  ∧ ∀ (ep : Endpoint) (s : State),
    (Outside s → (s.prng.get ep).reg ≠ 0 →
      exec (.prngClk ep) s = .next { s with
        prng := s.prng.set ep ⟨(prngClock (s.prng.get ep).reg).1⟩
        host := answered s.host .ok (if (s.prng.get ep).reg.getLsbD 0 then 1 else 0) })
    ∧ (InHandshake s → exec (.prngClk ep) s = .next (failsWith s .protocolViolation))
    ∧ (Outside s → (s.prng.get ep).reg = 0 →
        exec (.prngClk ep) s = .next (refusedWith s .zeroSeed))

/-- R172: PRNG_NONCE, with `seed = DATA[15:0]` and `ticks = DATA[31:16]`. -/
def Obligations.PrngNonceReturnsTheNonceAndLeavesItsTerminalState : Prop :=
  Encodes 0x2200000000000000 0xFF7F000000000000 (fun ep d => .prngNonce ep d)
  ∧ ∀ (ep : Endpoint) (data : Data48) (s : State),
    let seed : Reg16 := data.extractLsb' 0 16
    let ticks : BitVec 16 := data.extractLsb' 16 16
    let first := prngClockN ticks.toNat seed
    (Outside s → data.toNat < 2 ^ 32 → ticks.toNat % 16 = 0 → seed ≠ 0 →
      exec (.prngNonce ep data) s = .next { s with
        prng := s.prng.set ep ⟨prngClockN 32 first⟩
        host := answered s.host .ok ((first ++ prngClockN 16 first).setWidth 48) })
    ∧ (InHandshake s → exec (.prngNonce ep data) s = .next (failsWith s .protocolViolation))
    ∧ (Outside s → 2 ^ 32 ≤ data.toNat →
        exec (.prngNonce ep data) s = .next (refusedWith s .invalidWidth))
    ∧ (Outside s → data.toNat < 2 ^ 32 → ticks.toNat % 16 ≠ 0 →
        exec (.prngNonce ep data) s = .next (refusedWith s .invalidTickCount))
    ∧ (Outside s → data.toNat < 2 ^ 32 → ticks.toNat % 16 = 0 → seed = 0 →
        exec (.prngNonce ep data) s = .next (refusedWith s .zeroSeed))

/-- R168, R174: SUC shifts in the XOR of indices 0, 2, 3 and 5 of its 32-bit operand (integer bits
31, 29, 28, 26), in every state; `suc` forgets bit 0 of the nonce and nothing else. -/
def Obligations.SucCommandShiftsTheNonce : Prop :=
  Encodes 0x2400000000000000 0xFFFF000000000000 (fun _ d => .suc d)
  ∧ (∀ (data : Data48) (s : State),
    (data.toNat < 2 ^ 32 →
      exec (.suc data) s = .next (readsAs s
        ((data >>> 1)
          ||| (if data.getLsbD 31 ^^ (data.getLsbD 29 ^^ (data.getLsbD 28 ^^ data.getLsbD 26))
            then 0x80000000 else 0))))
    ∧ (2 ^ 32 ≤ data.toNat → exec (.suc data) s = .next (refusedWith s .invalidWidth)))
  ∧ (∀ m n : Nonce32, sucNonce m = sucNonce n ↔ m = n ∨ m = n ^^^ 1)

/-! ## Engine -/

/-- R191, R192: a clock shifts in the XOR of the eighteen taps (as integer bits) and of the input
bit, and its keystream bit is the filter of the NEW register value. -/
def Obligations.EngineClockFeedsBackItsEighteenTaps : Prop :=
  ∀ (v : Reg48) (input : Option Bool),
    (engClock v input).1.getLsbD 47
      = ((v.getLsbD 47 ^^ v.getLsbD 42 ^^ v.getLsbD 38 ^^ v.getLsbD 37 ^^ v.getLsbD 35
          ^^ v.getLsbD 33 ^^ v.getLsbD 32 ^^ v.getLsbD 30 ^^ v.getLsbD 28 ^^ v.getLsbD 23
          ^^ v.getLsbD 22 ^^ v.getLsbD 20 ^^ v.getLsbD 18 ^^ v.getLsbD 12 ^^ v.getLsbD 8
          ^^ v.getLsbD 6 ^^ v.getLsbD 5 ^^ v.getLsbD 4)
        ^^ (match input with | none => false | some b => b))
    ∧ (∀ i, i < 47 → (engClock v input).1.getLsbD i = v.getLsbD (i + 1))
    ∧ (engClock v input).2 = filterBit (engClock v input).1

/-- R198: the all-zero register is a fixed point of a clock without input, and an engine loaded with 0
emits only zeros; two registers have one successor exactly when they differ at most in the bit the
clock discards, integer bit 0; after 48 clocks every bit of the register is one those clocks fed back
(index `j` by the clock `48 - j`). -/
def Obligations.EngineClockForgetsExactlyTheOldestBit : Prop :=
  (engClock 0 none = (0, false) ∧ ∀ n, keystream 0 n = (0, 0))
  ∧ (∀ v w : Reg48, engClock v none = engClock w none ↔ v = w ∨ v = w ^^^ 1)
  ∧ (∀ (v : Reg48) (j : Nat), j < 48 →
    idx (keystream v 48).1 j = engFeedback (keystream v (47 - j)).1)

/-- R193: a count of 0 clocks nothing; each bit more is one clock more without input; bit `k` of the
word is the keystream bit of the `k`-th clock (from 0), and a bit from the count on is 0. -/
def Obligations.KeystreamBitIsTheFilterOfItsClock : Prop :=
  ∀ (v : Reg48) (n : Nat),
    keystream v 0 = (v, 0)
    ∧ (keystream v (n + 1)).1 = (engClock (keystream v n).1 none).1
    ∧ ∀ k, k < 48 →
      (keystream v n).2.getLsbD k = (decide (k < n) && (engClock (keystream v k).1 none).2)

/-- R193: `m + n` keystream bits are `m` bits and then `n` more from the register those leave. -/
def Obligations.KeystreamContinuesWhereItStopped : Prop :=
  ∀ (v : Reg48) (m n : Nat),
    keystream v (m + n)
      = ((keystream (keystream v m).1 n).1,
         (keystream v m).2 ||| ((keystream (keystream v m).1 n).2 <<< m))

/-- R199: ENG_RESET. -/
def Obligations.EngResetClearsTheEngine : Prop :=
  Encodes 0x1000000000000000 0xFF7FFFFFFFFFFFFF (fun ep _ => .engReset ep)
  ∧ ∀ (ep : Endpoint) (s : State),
    (Outside s → exec (.engReset ep) s = .next { s with
      eng := s.eng.set ep ⟨0, false⟩, host := answered s.host .ok 0 })
    ∧ (InHandshake s → exec (.engReset ep) s = .next (failsWith s .protocolViolation))

/-- R200: ENG_LOAD. -/
def Obligations.EngLoadPrimesAnUnprimedEngine : Prop :=
  Encodes 0x1100000000000000 0xFF7F000000000000 (fun ep d => .engLoad ep d)
  ∧ ∀ (ep : Endpoint) (x : Data48) (s : State),
    (Outside s → (s.eng.get ep).primed = false →
      exec (.engLoad ep x) s = .next { s with
        eng := s.eng.set ep ⟨x, true⟩, host := answered s.host .ok 0 })
    ∧ (InHandshake s → exec (.engLoad ep x) s = .next (failsWith s .protocolViolation))
    ∧ (Outside s → (s.eng.get ep).primed = true →
        exec (.engLoad ep x) s = .next (refusedWith s .alreadyPrimed))

/-- R201: ENG_MIX. -/
def Obligations.EngMixXorsIntoAPrimedEngine : Prop :=
  Encodes 0x1200000000000000 0xFF7F000000000000 (fun ep d => .engMix ep d)
  ∧ ∀ (ep : Endpoint) (x : Data48) (s : State),
    (Outside s → (s.eng.get ep).primed = true →
      exec (.engMix ep x) s = .next { s with
        eng := s.eng.set ep ⟨(s.eng.get ep).reg ^^^ x, true⟩, host := answered s.host .ok 0 })
    ∧ (InHandshake s → exec (.engMix ep x) s = .next (failsWith s .protocolViolation))
    ∧ (Outside s → (s.eng.get ep).primed = false →
        exec (.engMix ep x) s = .next (refusedWith s .notPrimed))

/-- R202: ENG_CLK, with no input bit (`IV = 0`) and with either (`IV = 1`); words of its `OP` that do
not match, and those with `IV = 0, IB = 1`, are illegal. The term with `IV = 0, IB = 1`, which no word
decodes to, is answered as such a word is (log entry 5). -/
def Obligations.EngClkClocksAPrimedEngine : Prop :=
  (∀ w : CmdWord,
    (w &&& 0xFF7CFFFFFFFFFFFF = 0x1300000000000000 →
      ((w.getLsbD 49 = true ∨ w.getLsbD 48 = false) →
        decode w = .ok
          (.engClk (if w.getLsbD 55 then .reader else .tag) (w.getLsbD 49) (w.getLsbD 48)))
      ∧ (w.getLsbD 49 = false → w.getLsbD 48 = true → AnsweredIllegal w))
    ∧ (w.extractLsb' 56 8 = 0x13 → w &&& 0xFF7CFFFFFFFFFFFF ≠ 0x1300000000000000 →
      AnsweredIllegal w))
  ∧ ∀ (ep : Endpoint) (iv ib : Bool) (s : State),
    ((iv = true ∨ ib = false) → Outside s → (s.eng.get ep).primed = true →
      exec (.engClk ep iv ib) s = .next { s with
        eng := s.eng.set ep
          ⟨(engClock (s.eng.get ep).reg (if iv then some ib else none)).1, true⟩
        host := answered s.host .ok
          (if (engClock (s.eng.get ep).reg (if iv then some ib else none)).2 then 1 else 0) })
    ∧ ((iv = true ∨ ib = false) → InHandshake s →
        exec (.engClk ep iv ib) s = .next (failsWith s .protocolViolation))
    ∧ ((iv = true ∨ ib = false) → Outside s → (s.eng.get ep).primed = false →
        exec (.engClk ep iv ib) s = .next (refusedWith s .notPrimed))
    ∧ (iv = false → ib = true →
        exec (.engClk ep iv ib) s = .next (refusedWith s .illegalCommand))

/-- R203: ENG_KS, for every count from 0 to 48. -/
def Obligations.EngKsExtractsKeystream : Prop :=
  Encodes 0x1400000000000000 0xFF7F000000000000 (fun ep d => .engKs ep d)
  ∧ ∀ (ep : Endpoint) (n : Data48) (s : State),
    (Outside s → n.toNat ≤ 48 → (s.eng.get ep).primed = true →
      exec (.engKs ep n) s = .next { s with
        eng := s.eng.set ep ⟨(keystream (s.eng.get ep).reg n.toNat).1, true⟩
        host := answered s.host .ok (keystream (s.eng.get ep).reg n.toNat).2 })
    ∧ (InHandshake s → exec (.engKs ep n) s = .next (failsWith s .protocolViolation))
    ∧ (Outside s → 48 < n.toNat → exec (.engKs ep n) s = .next (refusedWith s .invalidWidth))
    ∧ (Outside s → n.toNat ≤ 48 → (s.eng.get ep).primed = false →
        exec (.engKs ep n) s = .next (refusedWith s .notPrimed))

/-- R316 with R90: a register read with ENG_RDSTATE and put back with ENG_RESET and ENG_LOAD gives the
same keystream again, the same register after it and the same state of the block. -/
def Obligations.RestoredSnapshotReplaysItsKeystream : Prop :=
  ∀ (ep : Endpoint) (n : Data48) (s s1 s2 : State) (snap : Data48),
    Outside s → (s.eng.get ep).primed = true → n.toNat ≤ 48 →
    lastResponse s1 = some ⟨.ok, snap⟩ → exec (.engRdstate ep) s = .next s1 →
    exec (.engKs ep n) s1 = .next s2 →
    ∃ s3, runCommands [.engReset ep, .engLoad ep snap, .engKs ep n] s2 = .next s3
      ∧ lastResponse s3 = lastResponse s2 ∧ SameBlock s3 s2

/-- R197: two engines that start equal and receive the same operations in the same order hold equal
registers and emit equal keystream: after every such pair of commands the engines are equal and the
two answers, one to each endpoint, are equal. -/
def Obligations.SynchronizedEnginesStaySynchronized : Prop :=
  ∀ (fs : List (Endpoint → Instr)), (∀ f ∈ fs, isEngineCommand f) →
    ∀ s : State, Outside s → s.eng.tag = s.eng.reader →
      ∃ (t : State) (rs : List Response), runCommands (fs.flatMap fun f => [f .tag, f .reader]) s = .next t
        ∧ t.eng.tag = t.eng.reader
        ∧ t.host.responses = s.host.responses ++ rs.flatMap fun r => [r, r]

/-! ## Session -/

/-- R223 to R225: SET_UID, SET_KEY and SET_SEED write their register and nothing else; in handshake
they enter `Failed`; a width error enters `Failed` in `Idle` and leaves `fsm` in a terminal state. -/
def Obligations.SetCommandsWriteTheirRegister : Prop :=
  (Encodes 0x4000000000000000 0xFFFF000000000000 (fun _ d => .setUid d)
    ∧ Encodes 0x4100000000000000 0xFF7F000000000000 (fun ep d => .setKey ep d)
    ∧ Encodes 0x4200000000000000 0xFF7F000000000000 (fun ep d => .setSeed ep d))
  ∧ ∀ (ep : Endpoint) (d : Data48) (s : State),
    (Outside s →
      (d.toNat < 2 ^ 32 → exec (.setUid d) s = .next { s with
        cfg := { s.cfg with uid := d.setWidth 32 }, host := answered s.host .ok 0 })
      ∧ exec (.setKey ep d) s = .next { s with
        cfg := { s.cfg with key := s.cfg.key.set ep d }, host := answered s.host .ok 0 }
      ∧ (d.toNat < 2 ^ 16 → exec (.setSeed ep d) s = .next { s with
        cfg := { s.cfg with seed := s.cfg.seed.set ep (d.setWidth 16) }
        host := answered s.host .ok 0 }))
    ∧ (InHandshake s →
      exec (.setUid d) s = .next (failsWith s .protocolViolation)
      ∧ exec (.setKey ep d) s = .next (failsWith s .protocolViolation)
      ∧ exec (.setSeed ep d) s = .next (failsWith s .protocolViolation))
    ∧ (s.fsm.state = .idle →
      (2 ^ 32 ≤ d.toNat → exec (.setUid d) s = .next (failsWith s .invalidWidth))
      ∧ (2 ^ 16 ≤ d.toNat → exec (.setSeed ep d) s = .next (failsWith s .invalidWidth)))
    ∧ (Terminal s →
      (2 ^ 32 ≤ d.toNat → exec (.setUid d) s = .next (refusedWith s .invalidWidth))
      ∧ (2 ^ 16 ≤ d.toNat → exec (.setSeed ep d) s = .next (refusedWith s .invalidWidth)))

/-- R226: SET_TICKS accepts exactly the multiples of 16 that fit 16 bits. -/
def Obligations.SetTicksAcceptsMultiplesOfSixteen : Prop :=
  Encodes 0x4300000000000000 0xFF7F000000000000 (fun ep d => .setTicks ep d)
  ∧ ∀ (ep : Endpoint) (d : Data48) (s : State),
    (Outside s → d.toNat < 2 ^ 16 → d.toNat % 16 = 0 →
      exec (.setTicks ep d) s = .next { s with
        cfg := { s.cfg with ticks := s.cfg.ticks.set ep (d.setWidth 16) }
        host := answered s.host .ok 0 })
    ∧ (InHandshake s → exec (.setTicks ep d) s = .next (failsWith s .protocolViolation))
    ∧ (2 ^ 16 ≤ d.toNat →
        (s.fsm.state = .idle → exec (.setTicks ep d) s = .next (failsWith s .invalidWidth))
        ∧ (Terminal s → exec (.setTicks ep d) s = .next (refusedWith s .invalidWidth)))
    ∧ (d.toNat < 2 ^ 16 → d.toNat % 16 ≠ 0 →
        (s.fsm.state = .idle → exec (.setTicks ep d) s = .next (failsWith s .invalidTickCount))
        ∧ (Terminal s → exec (.setTicks ep d) s = .next (refusedWith s .invalidTickCount)))

/-- R227: SESSION_NEW clears both engines, the wires, the latches and `fsm`, in every state, and keeps
`cfg` and the PRNGs; no other command changes `fsm` in a terminal state. -/
def Obligations.SessionNewStartsAFreshSession : Prop :=
  Encodes 0x5000000000000000 0xFFFFFFFFFFFFFFFF (fun _ _ => .sessionNew)
  ∧ (∀ s : State, exec .sessionNew s = .next { s with
    eng := ⟨⟨0, false⟩, ⟨0, false⟩⟩, wire := ⟨0, 0, 0, 0⟩, lat := ⟨0, 0, 0, 0⟩
    fsm := ⟨.idle, .ok⟩, host := answered s.host .ok 0 })
  ∧ (∀ (i : Instr) (s t : State), Terminal s → exec i s = .next t → i ≠ .sessionNew →
    t.fsm = s.fsm)

/-- R229: T1. The last clause is the model's (log entry 12): in states no run reaches, where `cfg.ticks`
is no multiple of 16 (R27), `InvalidTickCount` enters `Failed`. -/
def Obligations.AuthStepFromIdleIssuesTheTagNonce : Prop :=
  ∀ s : State, s.fsm.state = .idle →
    (s.cfg.ticks.tag.toNat % 16 = 0 → s.cfg.seed.tag ≠ 0 →
      ∃ nt term, genNonce s.cfg.seed.tag s.cfg.ticks.tag = .ok (nt, term)
        ∧ exec .authStep s = .next { s with
          prng := { s.prng with tag := ⟨term⟩ }
          lat := { s.lat with tagNt := nt }
          wire := { s.wire with nt := nt }
          fsm := { s.fsm with state := .nonceIssued }
          host := answered s.host .ok 1 })
    ∧ (s.cfg.ticks.tag.toNat % 16 = 0 → s.cfg.seed.tag = 0 →
        exec .authStep s = .next (failsWith s .zeroSeed))
    ∧ (s.cfg.ticks.tag.toNat % 16 ≠ 0 →
        exec .authStep s = .next (failsWith s .invalidTickCount))

/-- R230: T2, with `K1` and `K2` the two keystream words of the reader; either engine primed raises
`AlreadyPrimed`, before the reader's seed of 0 raises `ZeroSeed`. The last clause is the model's (log
entry 12): in states no run reaches, where `cfg.ticks` is no multiple of 16 (R27), `InvalidTickCount`
enters `Failed`. -/
def Obligations.AuthStepFromNonceIssuedSendsTheChallenge : Prop :=
  ∀ s : State, s.fsm.state = .nonceIssued →
    (s.eng.tag.primed = false → s.eng.reader.primed = false →
      s.cfg.ticks.reader.toNat % 16 = 0 → s.cfg.seed.reader ≠ 0 →
      ∃ nr term, genNonce s.cfg.seed.reader s.cfg.ticks.reader = .ok (nr, term) ∧
        let loadT := s.cfg.uid.setWidth 48 ^^^ s.cfg.key.tag ^^^ s.lat.tagNt.setWidth 48
        let loadR := s.cfg.uid.setWidth 48 ^^^ s.cfg.key.reader ^^^ s.wire.nt.setWidth 48
        let k1 := keystream loadR 32
        let k2 := keystream (k1.1 ^^^ nr.setWidth 48) 32
        exec .authStep s = .next { s with
          eng := ⟨⟨loadT, true⟩, ⟨k2.1, true⟩⟩
          prng := { s.prng with reader := ⟨term⟩ }
          lat := { s.lat with rdrNt := s.wire.nt, rdrNr := nr }
          wire := { s.wire with
            nr := nr ^^^ k1.2.setWidth 32, ar := sucNonce s.wire.nt ^^^ k2.2.setWidth 32 }
          fsm := { s.fsm with state := .challengeSent }
          host := answered s.host .ok 2 })
    ∧ (s.eng.tag.primed = true ∨ s.eng.reader.primed = true →
        exec .authStep s = .next (failsWith s .alreadyPrimed))
    ∧ (s.eng.tag.primed = false → s.eng.reader.primed = false →
        (s.cfg.ticks.reader.toNat % 16 = 0 → s.cfg.seed.reader = 0 →
          exec .authStep s = .next (failsWith s .zeroSeed))
        ∧ (s.cfg.ticks.reader.toNat % 16 ≠ 0 →
          exec .authStep s = .next (failsWith s .invalidTickCount)))

/-- R231: T3, with `K1`, `K2` and `K3` the three keystream words of the tag. The last clause is the
model's (log entry 12): an unprimed tag engine, which no run reaches here, is refused by `mix_in`
(R195) and enters `Failed`. -/
def Obligations.AuthStepFromChallengeSentChecksTheReader : Prop :=
  ∀ s : State, s.fsm.state = .challengeSent →
    let k1 := keystream s.eng.tag.reg 32
    let nr := s.wire.nr ^^^ k1.2.setWidth 32
    let k2 := keystream (k1.1 ^^^ nr.setWidth 48) 32
    let k3 := keystream k2.1 32
    (s.eng.tag.primed = true → s.wire.ar ^^^ k2.2.setWidth 32 = sucNonce s.lat.tagNt →
      exec .authStep s = .next { s with
        eng := { s.eng with tag := ⟨k3.1, true⟩ }
        lat := { s.lat with tagNr := nr }
        wire := { s.wire with at_ := sucNonce (sucNonce s.lat.tagNt) ^^^ k3.2.setWidth 32 }
        fsm := { s.fsm with state := .responseVerified }
        host := answered s.host .ok 3 })
    ∧ (s.eng.tag.primed = true → s.wire.ar ^^^ k2.2.setWidth 32 ≠ sucNonce s.lat.tagNt →
        exec .authStep s = .next (failsWith s .authenticationFailed))
    ∧ (s.eng.tag.primed = false → exec .authStep s = .next (failsWith s .notPrimed))

/-- R232: T4, with `K3` the keystream word of the reader. -/
def Obligations.AuthStepFromResponseVerifiedChecksTheTag : Prop :=
  ∀ s : State, s.fsm.state = .responseVerified →
    let k3 := keystream s.eng.reader.reg 32
    let matched := s.wire.at_ ^^^ k3.2.setWidth 32 = sucNonce (sucNonce s.lat.rdrNt)
    (matched → s.eng.tag.reg = k3.1 →
      exec .authStep s = .next { s with
        eng := { s.eng with reader := { s.eng.reader with reg := k3.1 } }
        fsm := { s.fsm with state := .authenticated }
        host := answered s.host .ok 4 })
    ∧ (¬ matched → exec .authStep s = .next (failsWith s .authenticationFailed))
    ∧ (matched → s.eng.tag.reg ≠ k3.1 → exec .authStep s = .next (failsWith s .desynchronizedState))

/-- R228, R220: AUTH_STEP in a terminal state answers `ProtocolViolation` and leaves everything, `fsm`
included; its word is the one R228 gives. -/
def Obligations.AuthStepInATerminalStateIsRefused : Prop :=
  Encodes 0x5100000000000000 0xFFFFFFFFFFFFFFFF (fun _ _ => .authStep)
  ∧ ∀ s : State, Terminal s → exec .authStep s = .next (refusedWith s .protocolViolation)

/-- R240 to R244: a wire command writes its register, and nothing else, while the value is in flight.
Outside its window, before the handshake ends, a write enters `Failed` with `ProtocolViolation`,
whatever its width; inside it, a value too wide enters `Failed` with `InvalidWidth`; in a terminal
state it answers `ProtocolViolation` and leaves `fsm`. -/
def Obligations.WireCommandsReplaceTheValueInFlight : Prop :=
  (Encodes 0x5800000000000000 0xFFFF000000000000 (fun _ d => .wireWrNt d)
    ∧ Encodes 0x5900000000000000 0xFFFF000000000000 (fun _ d => .wireWrNr d)
    ∧ Encodes 0x5A00000000000000 0xFFFF000000000000 (fun _ d => .wireWrAr d)
    ∧ Encodes 0x5B00000000000000 0xFFFF000000000000 (fun _ d => .wireWrAt d))
  ∧ ∀ (d : Data48) (s : State),
    (d.toNat < 2 ^ 32 →
      (s.fsm.state = .nonceIssued → exec (.wireWrNt d) s = .next { s with
        wire := { s.wire with nt := d.setWidth 32 }, host := answered s.host .ok 0 })
      ∧ (s.fsm.state = .challengeSent →
        exec (.wireWrNr d) s = .next { s with
          wire := { s.wire with nr := d.setWidth 32 }, host := answered s.host .ok 0 }
        ∧ exec (.wireWrAr d) s = .next { s with
          wire := { s.wire with ar := d.setWidth 32 }, host := answered s.host .ok 0 })
      ∧ (s.fsm.state = .responseVerified → exec (.wireWrAt d) s = .next { s with
        wire := { s.wire with at_ := d.setWidth 32 }, host := answered s.host .ok 0 }))
    ∧ (2 ^ 32 ≤ d.toNat →
      (s.fsm.state = .nonceIssued → exec (.wireWrNt d) s = .next (failsWith s .invalidWidth))
      ∧ (s.fsm.state = .challengeSent →
        exec (.wireWrNr d) s = .next (failsWith s .invalidWidth)
        ∧ exec (.wireWrAr d) s = .next (failsWith s .invalidWidth))
      ∧ (s.fsm.state = .responseVerified →
        exec (.wireWrAt d) s = .next (failsWith s .invalidWidth)))
    ∧ (¬ Terminal s →
      (s.fsm.state ≠ .nonceIssued → exec (.wireWrNt d) s = .next (failsWith s .protocolViolation))
      ∧ (s.fsm.state ≠ .challengeSent →
        exec (.wireWrNr d) s = .next (failsWith s .protocolViolation)
        ∧ exec (.wireWrAr d) s = .next (failsWith s .protocolViolation))
      ∧ (s.fsm.state ≠ .responseVerified →
        exec (.wireWrAt d) s = .next (failsWith s .protocolViolation)))
    ∧ (Terminal s →
      exec (.wireWrNt d) s = .next (refusedWith s .protocolViolation)
      ∧ exec (.wireWrNr d) s = .next (refusedWith s .protocolViolation)
      ∧ exec (.wireWrAr d) s = .next (refusedWith s .protocolViolation)
      ∧ exec (.wireWrAt d) s = .next (refusedWith s .protocolViolation))

/-- R67, R204, R173, R238, R245 to R248: the read commands and NOP answer in every state and change
nothing. -/
def Obligations.ReadCommandsAnswerAndChangeNothing : Prop :=
  (Encodes 0x0000000000000000 0xFFFFFFFFFFFFFFFF (fun _ _ => .nop)
    ∧ Encodes 0x1500000000000000 0xFF7FFFFFFFFFFFFF (fun ep _ => .engRdstate ep)
    ∧ Encodes 0x2300000000000000 0xFF7FFFFFFFFFFFFF (fun ep _ => .prngRdstate ep)
    ∧ Encodes 0x6100000000000000 0xFFFFFFFFFFFFFFFF (fun _ _ => .rdWireNt)
    ∧ Encodes 0x6200000000000000 0xFFFFFFFFFFFFFFFF (fun _ _ => .rdWireNr)
    ∧ Encodes 0x6300000000000000 0xFFFFFFFFFFFFFFFF (fun _ _ => .rdWireAr)
    ∧ Encodes 0x6400000000000000 0xFFFFFFFFFFFFFFFF (fun _ _ => .rdWireAt))
  ∧ ∀ (ep : Endpoint) (s : State),
    exec .nop s = .next (readsAs s 0)
    ∧ exec (.engRdstate ep) s = .next (readsAs s (s.eng.get ep).reg)
    ∧ exec (.prngRdstate ep) s = .next (readsAs s ((s.prng.get ep).reg.setWidth 48))
    ∧ exec .rdWireNt s = .next (readsAs s (s.wire.nt.setWidth 48))
    ∧ exec .rdWireNr s = .next (readsAs s (s.wire.nr.setWidth 48))
    ∧ exec .rdWireAr s = .next (readsAs s (s.wire.ar.setWidth 48))
    ∧ exec .rdWireAt s = .next (readsAs s (s.wire.at_.setWidth 48))

/-- R35, R239: RD_STATUS returns the status word, with the codes of R30 and R280 in its fields and 0
in its reserved bits. -/
def Obligations.StatusWordHoldsItsFields : Prop :=
  Encodes 0x6000000000000000 0xFFFFFFFFFFFFFFFF (fun _ _ => .rdStatus)
  ∧ ∀ s : State, ∃ d : Data48, exec .rdStatus s = .next (readsAs s d)
    ∧ (d.extractLsb' 0 3).toNat = (match s.fsm.state with
        | .idle => 0 | .nonceIssued => 1 | .challengeSent => 2 | .responseVerified => 3
        | .authenticated => 4 | .failed => 5)
    ∧ d.getLsbD 3 = s.eng.tag.primed ∧ d.getLsbD 4 = s.eng.reader.primed
    ∧ d.extractLsb' 5 3 = 0
    ∧ (d.extractLsb' 8 4).toNat = (match s.fsm.fail with
        | .ok => 0 | .invalidWidth => 1 | .notPrimed => 2 | .alreadyPrimed => 3
        | .invalidTickCount => 4 | .desynchronizedState => 5 | .authenticationFailed => 6
        | .zeroSeed => 7 | .protocolViolation => 8 | .illegalCommand => 9)
    ∧ d.extractLsb' 12 36 = 0

/-! ## Whole-machine rules -/

/-- R281 to R283: a command that raises an error answers data 0 and changes no state, whatever it had
done before the error, but for the failure entry with that error, which happens in the four cases of
R283 and in no other. -/
def Obligations.ErrorsChangeOnlyTheStateMachine : Prop :=
  ∀ (i : Instr) (s t : State) (r : Response), exec i s = .next t → lastResponse t = some r →
    r.err ≠ .ok →
    let enters :=
      (classOf i = .step ∧ ¬ Terminal s)
      ∨ ((classOf i = .direct ∨ classOf i = .config) ∧ InHandshake s ∧ r.err = .protocolViolation)
      ∨ (classOf i = .config ∧ s.fsm.state = .idle
          ∧ (r.err = .invalidWidth ∨ r.err = .invalidTickCount))
      ∨ (classOf i = .wire ∧ ¬ Terminal s ∧ (r.err = .protocolViolation ∨ r.err = .invalidWidth))
    (enters → t = failsWith s r.err) ∧ (¬ enters → t = refusedWith s r.err)

/-- R220, R288: the state machine moves forward by AUTH_STEP only, one edge of the table at a time; it
fails from a state that is not terminal only; it returns to `Idle`, with `fsm.fail` `OK`, by
SESSION_NEW and by the hardware reset only. So nothing else leaves a terminal state. -/
def Obligations.StateMachineMovesAlongItsEdges : Prop :=
  ∀ s t : State, step s = .next t → t.fsm.state ≠ s.fsm.state →
    (Receives s .authStep
      ∧ ((s.fsm.state = .idle ∧ t.fsm.state = .nonceIssued)
        ∨ (s.fsm.state = .nonceIssued ∧ t.fsm.state = .challengeSent)
        ∨ (s.fsm.state = .challengeSent ∧ t.fsm.state = .responseVerified)
        ∨ (s.fsm.state = .responseVerified ∧ t.fsm.state = .authenticated)))
    ∨ (¬ Terminal s ∧ t.fsm.state = .failed ∧ ∃ i, Receives s i ∧ i ≠ .sessionNew)
    ∨ ((Receives s .sessionNew ∨ s.host.pending.head? = some .assertReset)
      ∧ t.fsm = ⟨.idle, .ok⟩)

/-- R221, R315: while a handshake is in progress no command but AUTH_STEP and SESSION_NEW changes an
engine, a PRNG or `cfg`, and no command but AUTH_STEP advances it. -/
def Obligations.HandshakeOwnsEnginesPrngsAndConfig : Prop :=
  ∀ (i : Instr) (s t : State), InHandshake s → exec i s = .next t →
    i ≠ .authStep → i ≠ .sessionNew →
    t.eng = s.eng ∧ t.prng = s.prng ∧ t.cfg = s.cfg ∧ t.lat = s.lat
    ∧ (t.fsm = s.fsm ∨ t.fsm.state = .failed)

/-- R36: the two endpoints' values are apart; a direct command of one endpoint leaves the other
endpoint's engine and PRNG, and T1, T3 and T4, each a step of one endpoint, the other's. -/
def Obligations.EndpointsOwnTheirEngineAndPrng : Prop :=
  (∀ (α : Type) (p : PerEndpoint α) (a : α),
    p.get .tag = p.tag ∧ p.get .reader = p.reader
    ∧ p.set .tag a = ⟨a, p.reader⟩ ∧ p.set .reader a = ⟨p.tag, a⟩)
  ∧ ∀ (s t : State),
    (∀ i, (i = .engReset .tag ∨ (∃ x, i = .engLoad .tag x) ∨ (∃ x, i = .engMix .tag x)
        ∨ (∃ iv ib, i = .engClk .tag iv ib) ∨ (∃ n, i = .engKs .tag n)
        ∨ (∃ d, i = .prngSeed .tag d) ∨ i = .prngClk .tag ∨ (∃ d, i = .prngNonce .tag d)) →
      exec i s = .next t → t.eng.reader = s.eng.reader ∧ t.prng.reader = s.prng.reader)
    ∧ (∀ i, (i = .engReset .reader ∨ (∃ x, i = .engLoad .reader x) ∨ (∃ x, i = .engMix .reader x)
        ∨ (∃ iv ib, i = .engClk .reader iv ib) ∨ (∃ n, i = .engKs .reader n)
        ∨ (∃ d, i = .prngSeed .reader d) ∨ i = .prngClk .reader
        ∨ (∃ d, i = .prngNonce .reader d)) →
      exec i s = .next t → t.eng.tag = s.eng.tag ∧ t.prng.tag = s.prng.tag)
    ∧ (exec .authStep s = .next t →
        (s.fsm.state = .idle ∨ s.fsm.state = .challengeSent →
          t.eng.reader = s.eng.reader ∧ t.prng.reader = s.prng.reader)
        ∧ (s.fsm.state = .responseVerified → t.eng.tag = s.eng.tag ∧ t.prng = s.prng))

/-- R25, R290: no command's answer reads `cfg.key`: two states that differ in the keys alone give the
same answer to every command, and but for AUTH_STEP (whose T2 reads the keys) differ in the keys
alone afterwards. -/
def Obligations.NoAnswerReadsTheKey : Prop :=
  ∀ (i : Instr) (s t : State) (key : PerEndpoint Reg48),
    exec i s = .next t →
    ∃ u, exec i { s with cfg := { s.cfg with key := key } } = .next u
      ∧ u.host = t.host
      ∧ (i ≠ .authStep →
          u = { t with cfg := { t.cfg with key := u.cfg.key } })

/-- R27, R31, R227, R231, R245 to R248, R283: every step keeps the invariant of the block. -/
def Obligations.EveryStepKeepsTheBlockSound : Prop :=
  ∀ s t : State, Sound s → step s = .next t → Sound t

/-- R311: the reset state has the invariant. -/
def Obligations.ResetStateIsSound : Prop := Sound State.reset

/-- R234, R285: CONVERGENCE. With equal keys, four AUTH_STEPs from `Idle` answer 1, 2, 3, 4, reach
`Authenticated`, and leave equal engines; no step of the handshake raises an error. -/
def Obligations.HonestHandshakeConverges : Prop :=
  ∀ s : State, Ready s → s.cfg.key.tag = s.cfg.key.reader →
    ∃ t, runCommands [.authStep, .authStep, .authStep, .authStep] s = .next t
      ∧ t.fsm.state = .authenticated ∧ t.eng.tag.reg = t.eng.reader.reg
      ∧ t.host.responses = s.host.responses ++ [⟨.ok, 1⟩, ⟨.ok, 2⟩, ⟨.ok, 3⟩, ⟨.ok, 4⟩]
      ∧ t.lat.tagNr = t.lat.rdrNr ∧ t.lat.tagNt = t.lat.rdrNt

/-- R235, R241: a difference of the keys confined to integer bit 0 (register index 47, which the first
clock discards unread), and a change of `wire.nt` confined to bit 0, go undetected in every honest
session, together as well: the handshake reaches `Authenticated` with equal engines. So "any one-bit
key difference fails" is not a theorem of this block. -/
def Obligations.BitZeroOfKeyAndNtGoesUndetected : Prop :=
  ∀ s : State, Ready s →
    s.cfg.key.tag = s.cfg.key.reader ∨ s.cfg.key.tag = s.cfg.key.reader ^^^ 1 →
    ∃ s1, exec .authStep s = .next s1 ∧ ∀ v : Nonce32, v = s1.wire.nt ∨ v = s1.wire.nt ^^^ 1 →
      ∃ t, runCommands [.wireWrNt (v.setWidth 48), .authStep, .authStep, .authStep] s1 = .next t
        ∧ t.fsm.state = .authenticated ∧ t.eng.tag.reg = t.eng.reader.reg

/-- R243, R244: in every honest session any change of `wire.ar` makes T3 fail, and any change of
`wire.at` makes T4 fail, with `AuthenticationFailed`. -/
def Obligations.ChangedResponsesFailAuthentication : Prop :=
  ∀ (s : State) (v : Nonce32), Ready s → s.cfg.key.tag = s.cfg.key.reader →
    ∃ s2 s3, runCommands [.authStep, .authStep] s = .next s2 ∧ exec .authStep s2 = .next s3
      ∧ (v ≠ s2.wire.ar →
          ∃ t, runCommands [.wireWrAr (v.setWidth 48), .authStep] s2 = .next t
            ∧ t.fsm = ⟨.failed, .authenticationFailed⟩)
      ∧ (v ≠ s3.wire.at_ →
          ∃ t, runCommands [.wireWrAt (v.setWidth 48), .authStep] s3 = .next t
            ∧ t.fsm = ⟨.failed, .authenticationFailed⟩)

/-- R317 outside a handshake: a command other than ENG_LOAD, ENG_MIX, ENG_CLK, ENG_KS, PRNG_CLK and
AUTH_STEP, repeated at once, gives the same answer and leaves the same state of the block. The
restriction is the model's (log entry 10), and so is the reading that PRNG_NONCE is among these
commands, against R67 (log entry 13). -/
def Obligations.OtherCommandsAreIdempotentOutsideAHandshake : Prop :=
  ∀ (i : Instr) (s t : State), Outside s → exec i s = .next t →
    (∀ ep x, i ≠ .engLoad ep x) → (∀ ep x, i ≠ .engMix ep x) → (∀ ep iv ib, i ≠ .engClk ep iv ib) →
    (∀ ep n, i ≠ .engKs ep n) → (∀ ep, i ≠ .prngClk ep) → i ≠ .authStep →
    ∃ u, exec i t = .next u ∧ SameBlock u t ∧ lastResponse u = lastResponse t
end

