-- ==== Sys2Proof/Laws/Decode.lean ====
section
/-! SUPPORT. The laws of the command word: its fields and how they are put together (30_encoding.md
rule R80), and the one lemma that says what the decoder does with the opcode map (R85). -/

namespace Sys2Proof

/-- Every bit of a packed word. -/
theorem getLsbD_packWord (op : BitVec 8) (ep iv ib : Bool) (rsv : BitVec 5) (d : Data48) (i : Nat) :
    (packWord op ep rsv iv ib d).getLsbD i =
      if i < 48 then d.getLsbD i else if i = 48 then ib else if i = 49 then iv
      else if i < 55 then rsv.getLsbD (i - 50) else if i = 55 then ep else op.getLsbD (i - 56) := by
  simp only [packWord, BitVec.getLsbD_append]
  split_ifs <;> first
    | rfl
    | (exfalso; omega)
    | (subst_vars; simp)

@[simp] theorem opField_packWord (op : BitVec 8) (ep iv ib : Bool) (rsv : BitVec 5) (d : Data48) :
    opField (packWord op ep rsv iv ib d) = op := by
  ext i hi
  simp [opField, getLsbD_packWord, hi, show ¬ (56 + i < 48) by omega, show ¬ (56 + i = 48) by omega,
    show ¬ (56 + i = 49) by omega, show ¬ (56 + i < 55) by omega, show ¬ (56 + i = 55) by omega]

@[simp] theorem epField_packWord (op : BitVec 8) (ep : Endpoint) (iv ib : Bool) (rsv : BitVec 5)
    (d : Data48) : epField (packWord op ep.bit rsv iv ib d) = ep := by
  unfold epField
  rw [getLsbD_packWord]
  cases ep <;> rfl

@[simp] theorem ivField_packWord (op : BitVec 8) (ep iv ib : Bool) (rsv : BitVec 5) (d : Data48) :
    ivField (packWord op ep rsv iv ib d) = iv := by
  unfold ivField
  rw [getLsbD_packWord]
  rfl

@[simp] theorem ibField_packWord (op : BitVec 8) (ep iv ib : Bool) (rsv : BitVec 5) (d : Data48) :
    ibField (packWord op ep rsv iv ib d) = ib := by
  unfold ibField
  rw [getLsbD_packWord]
  rfl

@[simp] theorem dataField_packWord (op : BitVec 8) (ep iv ib : Bool) (rsv : BitVec 5) (d : Data48) :
    dataField (packWord op ep rsv iv ib d) = d := by
  ext i hi
  simp [dataField, getLsbD_packWord, hi]

/-- The AND of two words is the AND of their fields. -/
theorem packWord_and (op op' : BitVec 8) (ep ep' iv iv' ib ib' : Bool) (rsv rsv' : BitVec 5)
    (d d' : Data48) :
    packWord op ep rsv iv ib d &&& packWord op' ep' rsv' iv' ib' d'
      = packWord (op &&& op') (ep && ep') (rsv &&& rsv') (iv && iv') (ib && ib') (d &&& d') := by
  apply BitVec.eq_of_getLsbD_eq
  intro i _
  rw [BitVec.getLsbD_and, getLsbD_packWord, getLsbD_packWord, getLsbD_packWord]
  split_ifs <;> simp

/-- Every word is packed from its fields. -/
theorem packWord_fields (w : CmdWord) :
    packWord (opField w) (epField w).bit (w.extractLsb' 50 5) (ivField w) (ibField w) (dataField w)
      = w := by
  apply BitVec.eq_of_getLsbD_eq
  intro i hi
  rw [getLsbD_packWord]
  split_ifs with h1 h2 h3 h4 h5
  · simp [dataField, h1]
  · rw [h2]; rfl
  · rw [h3]; rfl
  · simp [show i - 50 < 5 by omega, show 50 + (i - 50) = i by omega]
  · subst h5
    unfold epField
    cases w.getLsbD 55 <;> rfl
  · simp [opField, show i - 56 < 8 by omega, show 56 + (i - 56) = i by omega]

/-- The operand of a word is its low 48 bits. -/
theorem packWord_eq_or (op : BitVec 8) (ep iv ib : Bool) (rsv : BitVec 5) (d : Data48) :
    packWord op ep rsv iv ib d = packWord op ep rsv iv ib 0 ||| d.setWidth 64 := by
  apply BitVec.eq_of_getLsbD_eq
  intro i hi
  rw [BitVec.getLsbD_or, getLsbD_packWord, getLsbD_packWord, BitVec.getLsbD_setWidth]
  by_cases h : i < 48
  · simp [h, hi]
  · simp [h, hi, BitVec.getLsbD_of_ge d i (by omega)]

/-- The row found for an opcode is a row with that opcode. -/
theorem rowOf_mem {op : BitVec 8} {r : OpcodeRow} (h : rowOf op = some r) :
    r ∈ opcodeRows ∧ r.op = op :=
  ⟨List.mem_of_find?_eq_some h, by simpa using List.find?_some h⟩

/-- Each OP value appears in one row (R85): the row found for a row's opcode is that row. -/
theorem rowOf_op {r : OpcodeRow} (h : r ∈ opcodeRows) : rowOf r.op = some r := by
  simp only [opcodeRows, datapathRows, sessionRows, List.cons_append, List.nil_append,
    List.mem_cons, List.not_mem_nil, or_false] at h
  rcases h with h | h | h | h | h | h | h | h | h | h | h | h | h | h | h | h | h | h | h | h | h
    | h | h | h | h | h | h | h <;> subst h <;> rfl

/-- A row fixes the whole of `OP` (R85). -/
theorem row_fixes_op {r : OpcodeRow} (h : r ∈ opcodeRows) :
    opField r.mask = 0xFF ∧ opField r.matchBits = r.op := by
  have : ∀ r ∈ opcodeRows, opField r.mask = 0xFF ∧ opField r.matchBits = r.op := by decide
  exact this r h

theorem opField_and (w m : CmdWord) : opField (w &&& m) = opField w &&& opField m := by
  ext i hi
  simp [opField]

/-- A word a row matches has the row's opcode. -/
theorem opField_of_match {r : OpcodeRow} (h : r ∈ opcodeRows) {w : CmdWord}
    (hw : w &&& r.mask = r.matchBits) : opField w = r.op := by
  have e := congrArg opField hw
  rw [opField_and, (row_fixes_op h).1, (row_fixes_op h).2] at e
  rw [← e]
  exact (BitVec.and_allOnes (x := opField w)).symm

/-- A word a row matches decodes to the row's command, but for ENG_CLK's illegal words (R83). -/
theorem decode_of_match {r : OpcodeRow} (h : r ∈ opcodeRows) {w : CmdWord}
    (hw : w &&& r.mask = r.matchBits) :
    decode w = if (r.instr w).wf then .ok (r.instr w) else .error .inputBitNotValid := by
  simp [decode, opField_of_match h hw, rowOf_op h, hw]

/-- The same for a row given by its opcode. -/
theorem decode_of_row {r : OpcodeRow} (op : BitVec 8) (hr : rowOf op = some r) {w : CmdWord}
    (hw : w &&& r.mask = r.matchBits) :
    decode w = if (r.instr w).wf then .ok (r.instr w) else .error .inputBitNotValid :=
  decode_of_match (rowOf_mem hr).1 hw

/-- A word with a row's opcode that the row does not match decodes to nothing (R86). -/
theorem decode_of_mismatch {r : OpcodeRow} (op : BitVec 8) (hr : rowOf op = some r) {w : CmdWord}
    (ho : opField w = op) (hw : w &&& r.mask ≠ r.matchBits) : ∃ e, decode w = .error e := by
  simp [decode, ho, hr, hw]

/-- What the decoder accepts, whole: the words a row matches whose command is well-formed. -/
theorem decode_eq_ok {w : CmdWord} {i : Instr} :
    decode w = .ok i
      ↔ ∃ r ∈ opcodeRows, w &&& r.mask = r.matchBits ∧ i.wf = true ∧ i = r.instr w := by
  constructor
  · intro h
    unfold decode at h
    split at h
    · cases h
    · rename_i r hr
      split at h
      · rename_i hm
        split at h
        · rename_i hw
          cases h
          exact ⟨r, (rowOf_mem hr).1, hm, hw, rfl⟩
        · cases h
      · cases h
  · rintro ⟨r, hr, hm, hw, rfl⟩
    rw [decode_of_match hr hm, if_pos hw]

end Sys2Proof
end

