-- ==== Sys2Proof/Laws/State.lean ====
section
/-! SUPPORT. One lemma per field of the state per update, each true by `rfl`, so that no later proof
unfolds an update; and the small laws of a value held for each endpoint. -/

namespace Sys2Proof.Machine.State

open Sys2Proof Sys2Proof.Machine

@[simp] theorem setEng_eng (s : State) (ep : Endpoint) (e : Engine) : (s.setEng ep e).eng = s.eng.set ep e := rfl
@[simp] theorem setEng_prng (s : State) (ep : Endpoint) (e : Engine) : (s.setEng ep e).prng = s.prng := rfl
@[simp] theorem setEng_cfg (s : State) (ep : Endpoint) (e : Engine) : (s.setEng ep e).cfg = s.cfg := rfl
@[simp] theorem setEng_wire (s : State) (ep : Endpoint) (e : Engine) : (s.setEng ep e).wire = s.wire := rfl
@[simp] theorem setEng_lat (s : State) (ep : Endpoint) (e : Engine) : (s.setEng ep e).lat = s.lat := rfl
@[simp] theorem setEng_fsm (s : State) (ep : Endpoint) (e : Engine) : (s.setEng ep e).fsm = s.fsm := rfl
@[simp] theorem setEng_host (s : State) (ep : Endpoint) (e : Engine) : (s.setEng ep e).host = s.host := rfl

@[simp] theorem setPrng_eng (s : State) (ep : Endpoint) (v : Reg16) : (s.setPrng ep v).eng = s.eng := rfl
@[simp] theorem setPrng_prng (s : State) (ep : Endpoint) (v : Reg16) : (s.setPrng ep v).prng = s.prng.set ep ⟨v⟩ := rfl
@[simp] theorem setPrng_cfg (s : State) (ep : Endpoint) (v : Reg16) : (s.setPrng ep v).cfg = s.cfg := rfl
@[simp] theorem setPrng_wire (s : State) (ep : Endpoint) (v : Reg16) : (s.setPrng ep v).wire = s.wire := rfl
@[simp] theorem setPrng_lat (s : State) (ep : Endpoint) (v : Reg16) : (s.setPrng ep v).lat = s.lat := rfl
@[simp] theorem setPrng_fsm (s : State) (ep : Endpoint) (v : Reg16) : (s.setPrng ep v).fsm = s.fsm := rfl
@[simp] theorem setPrng_host (s : State) (ep : Endpoint) (v : Reg16) : (s.setPrng ep v).host = s.host := rfl

@[simp] theorem respond_eng (s : State) (e : ErrCode) (d : Data48) : (s.respond e d).eng = s.eng := rfl
@[simp] theorem respond_prng (s : State) (e : ErrCode) (d : Data48) : (s.respond e d).prng = s.prng := rfl
@[simp] theorem respond_cfg (s : State) (e : ErrCode) (d : Data48) : (s.respond e d).cfg = s.cfg := rfl
@[simp] theorem respond_wire (s : State) (e : ErrCode) (d : Data48) : (s.respond e d).wire = s.wire := rfl
@[simp] theorem respond_lat (s : State) (e : ErrCode) (d : Data48) : (s.respond e d).lat = s.lat := rfl
@[simp] theorem respond_fsm (s : State) (e : ErrCode) (d : Data48) : (s.respond e d).fsm = s.fsm := rfl
@[simp] theorem respond_host (s : State) (e : ErrCode) (d : Data48) : (s.respond e d).host = { s.host with responses := s.host.responses ++ [⟨e, d⟩] } := rfl

@[simp] theorem enterFailed_eng (s : State) (e : ErrCode) : (s.enterFailed e).eng = s.eng := rfl
@[simp] theorem enterFailed_prng (s : State) (e : ErrCode) : (s.enterFailed e).prng = s.prng := rfl
@[simp] theorem enterFailed_cfg (s : State) (e : ErrCode) : (s.enterFailed e).cfg = s.cfg := rfl
@[simp] theorem enterFailed_wire (s : State) (e : ErrCode) : (s.enterFailed e).wire = s.wire := rfl
@[simp] theorem enterFailed_lat (s : State) (e : ErrCode) : (s.enterFailed e).lat = s.lat := rfl
@[simp] theorem enterFailed_fsm (s : State) (e : ErrCode) : (s.enterFailed e).fsm = ⟨.failed, e⟩ := rfl
@[simp] theorem enterFailed_host (s : State) (e : ErrCode) : (s.enterFailed e).host = s.host := rfl

@[simp] theorem freshSession_eng (s : State) : (s.freshSession).eng = ⟨⟨0, false⟩, ⟨0, false⟩⟩ := rfl
@[simp] theorem freshSession_prng (s : State) : (s.freshSession).prng = s.prng := rfl
@[simp] theorem freshSession_cfg (s : State) : (s.freshSession).cfg = s.cfg := rfl
@[simp] theorem freshSession_wire (s : State) : (s.freshSession).wire = ⟨0, 0, 0, 0⟩ := rfl
@[simp] theorem freshSession_lat (s : State) : (s.freshSession).lat = ⟨0, 0, 0, 0⟩ := rfl
@[simp] theorem freshSession_fsm (s : State) : (s.freshSession).fsm = ⟨.idle, .ok⟩ := rfl
@[simp] theorem freshSession_host (s : State) : (s.freshSession).host = s.host := rfl

@[simp] theorem hardwareReset_eng (s : State) : (s.hardwareReset).eng = State.reset.eng := rfl
@[simp] theorem hardwareReset_prng (s : State) : (s.hardwareReset).prng = State.reset.prng := rfl
@[simp] theorem hardwareReset_cfg (s : State) : (s.hardwareReset).cfg = State.reset.cfg := rfl
@[simp] theorem hardwareReset_wire (s : State) : (s.hardwareReset).wire = State.reset.wire := rfl
@[simp] theorem hardwareReset_lat (s : State) : (s.hardwareReset).lat = State.reset.lat := rfl
@[simp] theorem hardwareReset_fsm (s : State) : (s.hardwareReset).fsm = State.reset.fsm := rfl
@[simp] theorem hardwareReset_host (s : State) : (s.hardwareReset).host = s.host := rfl

@[simp] theorem answerIllegal_eng (s : State) : (s.answerIllegal).eng = s.eng := rfl
@[simp] theorem answerIllegal_prng (s : State) : (s.answerIllegal).prng = s.prng := rfl
@[simp] theorem answerIllegal_cfg (s : State) : (s.answerIllegal).cfg = s.cfg := rfl
@[simp] theorem answerIllegal_wire (s : State) : (s.answerIllegal).wire = s.wire := rfl
@[simp] theorem answerIllegal_lat (s : State) : (s.answerIllegal).lat = s.lat := rfl
@[simp] theorem answerIllegal_fsm (s : State) : (s.answerIllegal).fsm = s.fsm := rfl
@[simp] theorem answerIllegal_host (s : State) : (s.answerIllegal).host = { s.host with responses := s.host.responses ++ [⟨.illegalCommand, 0⟩] } := rfl

@[simp] theorem takeEvent_eng (s : State) : (s.takeEvent).eng = s.eng := rfl
@[simp] theorem takeEvent_prng (s : State) : (s.takeEvent).prng = s.prng := rfl
@[simp] theorem takeEvent_cfg (s : State) : (s.takeEvent).cfg = s.cfg := rfl
@[simp] theorem takeEvent_wire (s : State) : (s.takeEvent).wire = s.wire := rfl
@[simp] theorem takeEvent_lat (s : State) : (s.takeEvent).lat = s.lat := rfl
@[simp] theorem takeEvent_fsm (s : State) : (s.takeEvent).fsm = s.fsm := rfl
@[simp] theorem takeEvent_host (s : State) : (s.takeEvent).host = { s.host with pending := s.host.pending.tail } := rfl

@[simp] theorem withResetInput_eng (s : State) (b : Bool) : (s.withResetInput b).eng = s.eng := rfl
@[simp] theorem withResetInput_prng (s : State) (b : Bool) : (s.withResetInput b).prng = s.prng := rfl
@[simp] theorem withResetInput_cfg (s : State) (b : Bool) : (s.withResetInput b).cfg = s.cfg := rfl
@[simp] theorem withResetInput_wire (s : State) (b : Bool) : (s.withResetInput b).wire = s.wire := rfl
@[simp] theorem withResetInput_lat (s : State) (b : Bool) : (s.withResetInput b).lat = s.lat := rfl
@[simp] theorem withResetInput_fsm (s : State) (b : Bool) : (s.withResetInput b).fsm = s.fsm := rfl
@[simp] theorem withResetInput_host (s : State) (b : Bool) : (s.withResetInput b).host = { s.host with resetAsserted := b } := rfl

/-- Two states are equal when their seven fields are. -/
theorem eq_of_fields {s t : State} (he : s.eng = t.eng) (hp : s.prng = t.prng) (hc : s.cfg = t.cfg)
    (hw : s.wire = t.wire) (hl : s.lat = t.lat) (hf : s.fsm = t.fsm) (hh : s.host = t.host) : s = t := by
  cases s; cases t; simp_all

end Sys2Proof.Machine.State

namespace Sys2Proof.Machine.PerEndpoint

variable {α : Type}

@[simp] theorem get_tag (p : PerEndpoint α) : p.get .tag = p.tag := rfl
@[simp] theorem get_reader (p : PerEndpoint α) : p.get .reader = p.reader := rfl
@[simp] theorem set_tag_tag (p : PerEndpoint α) (a : α) : (p.set .tag a).tag = a := rfl
@[simp] theorem set_tag_reader (p : PerEndpoint α) (a : α) : (p.set .tag a).reader = p.reader := rfl
@[simp] theorem set_reader_tag (p : PerEndpoint α) (a : α) : (p.set .reader a).tag = p.tag := rfl
@[simp] theorem set_reader_reader (p : PerEndpoint α) (a : α) : (p.set .reader a).reader = a := rfl

/-- What is written to an endpoint is read back from it. -/
@[simp] theorem get_set (p : PerEndpoint α) (ep : Endpoint) (a : α) : (p.set ep a).get ep = a := by
  cases ep <;> rfl

/-- Writing one endpoint's value leaves the other's (R36). -/
theorem get_set_of_ne (p : PerEndpoint α) {ep ep' : Endpoint} (a : α) (h : ep' ≠ ep) :
    (p.set ep a).get ep' = p.get ep' := by
  cases ep <;> cases ep' <;> first | rfl | exact absurd rfl h

/-- The last write to an endpoint counts. -/
@[simp] theorem set_set (p : PerEndpoint α) (ep : Endpoint) (a b : α) :
    (p.set ep a).set ep b = p.set ep b := by
  cases ep <;> rfl

end Sys2Proof.Machine.PerEndpoint
end

