-- ==== Sys2Proof/Laws/Ops.lean ====
section
/-! SUPPORT. One lemma for each shared operation that says once what it does: `require`, the operand
kinds, the gate, the bits of a shift, and the ways a command is answered. -/

namespace Sys2Proof.Machine

open Sys2Proof

@[simp] theorem except_bind_ok {ε α β : Type} (a : α) (f : α → Except ε β) :
    ((Except.ok a : Except ε α) >>= f) = f a := rfl

@[simp] theorem except_bind_error {ε α β : Type} (e : ε) (f : α → Except ε β) :
    ((Except.error e : Except ε α) >>= f) = .error e := rfl

@[simp] theorem except_pure {ε α : Type} (a : α) : (pure a : Except ε α) = .ok a := rfl

/-- A bind answers only where its first part answers. -/
theorem except_bind_eq_ok {ε α β : Type} {x : Except ε α} {f : α → Except ε β} {b : β} :
    (x >>= f) = .ok b ↔ ∃ a, x = .ok a ∧ f a = .ok b := by
  cases x <;> simp

/-- A bind raises what its first part raises, or what the rest raises. -/
theorem except_bind_eq_error {ε α β : Type} {x : Except ε α} {f : α → Except ε β} {e : ε} :
    (x >>= f) = .error e ↔ x = .error e ∨ ∃ a, x = .ok a ∧ f a = .error e := by
  cases x <;> simp

@[simp] theorem require_true (e : ErrCode) : require true e = .ok () := rfl
@[simp] theorem require_false (e : ErrCode) : require false e = .error e := rfl

theorem require_eq_ok {b : Bool} {e : ErrCode} {u : Unit} : require b e = .ok u ↔ b = true := by
  cases b <;> simp

theorem require_eq_error {b : Bool} {e e' : ErrCode} :
    require b e = .error e' ↔ b = false ∧ e' = e := by
  cases b <;> simp [eq_comm]

/-- A value that fits is kept (R124). -/
theorem fromInteger_of_lt {w : Nat} {v : Data48} (h : v.toNat < 2 ^ w) :
    fromInteger w v = .ok (v.setWidth w) := by
  simp [fromInteger, h]

/-- A value that does not fit raises `InvalidWidth` (R124). -/
theorem fromInteger_of_ge {w : Nat} {v : Data48} (h : 2 ^ w ≤ v.toNat) :
    fromInteger w v = .error .invalidWidth := by
  simp [fromInteger, Nat.not_lt.mpr h]

/-- The two outcomes of `from_integer` (R124). -/
theorem fromInteger_cases (w : Nat) (v : Data48) :
    fromInteger w v = .ok (v.setWidth w) ∨ fromInteger w v = .error .invalidWidth := by
  rcases Nat.lt_or_ge v.toNat (2 ^ w) with h | h
  · exact .inl (fromInteger_of_lt h)
  · exact .inr (fromInteger_of_ge h)

theorem operandCount_of_le {n : Data48} (h : n.toNat ≤ 48) : operandCount n = .ok n.toNat := by
  simp [operandCount, Config.ksMax, h]

theorem operandCount_of_gt {n : Data48} (h : 48 < n.toNat) :
    operandCount n = .error .invalidWidth := by
  simp [operandCount, Config.ksMax, Nat.not_le.mpr h]

/-- The gate is open outside a handshake (R221). -/
theorem gate_of_outside {s : State} (h : s.fsm.state.inHandshake = false) : gate s = .ok () := by
  simp [gate, h]

/-- The gate refuses in handshake (R221). -/
theorem gate_of_inHandshake {s : State} (h : s.fsm.state.inHandshake = true) :
    gate s = .error .protocolViolation := by
  simp [gate, h]

theorem gate_eq_ok {s : State} {u : Unit} : gate s = .ok u ↔ s.fsm.state.inHandshake = false := by
  simp [gate, require_eq_ok]

theorem gate_eq_error {s : State} {e : ErrCode} :
    gate s = .error e ↔ s.fsm.state.inHandshake = true ∧ e = .protocolViolation := by
  simp [gate, require_eq_error]

@[simp] theorem answer_ok (c : CommandClass) (s t : State) (d : Data48) :
    answer c s (.ok (t, d)) = .next (t.respond .ok d) := rfl

@[simp] theorem answer_error (c : CommandClass) (s : State) (e : ErrCode) :
    answer c s (.error e) = .next (s.raiseError c e) := rfl

/-- A command is always answered with a next state: the one its pseudocode returns with the value in
the response, or the state before it with the error taken. -/
theorem answer_cases {c : CommandClass} {s u : State} {r : Result} (h : answer c s r = .next u) :
    (∃ t d, r = .ok (t, d) ∧ u = t.respond .ok d) ∨ (∃ e, r = .error e ∧ u = s.raiseError c e) := by
  rcases r with e | ⟨t, d⟩
  · exact .inr ⟨e, rfl, by simpa using h.symm⟩
  · exact .inl ⟨t, d, rfl, by simpa using h.symm⟩

theorem answer_isNext (c : CommandClass) (s : State) (r : Result) : ∃ u, answer c s r = .next u := by
  rcases r with e | ⟨t, d⟩
  · exact ⟨_, rfl⟩
  · exact ⟨_, rfl⟩

/-- An error whose class and state enter `Failed` (R283). -/
theorem raiseError_of_enters {s : State} {c : CommandClass} {e : ErrCode}
    (h : entersFailed c s.fsm.state e = true) : s.raiseError c e = (s.enterFailed e).respond e 0 := by
  simp [State.raiseError, h]

/-- An error that leaves `fsm` unchanged (R283). -/
theorem raiseError_of_not_enters {s : State} {c : CommandClass} {e : ErrCode}
    (h : entersFailed c s.fsm.state e = false) : s.raiseError c e = s.respond e 0 := by
  simp [State.raiseError, h]

/-- A shift by one, bit by bit, in integer bits (R121). -/
theorem shiftIn_getLsbD {n : Nat} (v : BitVec n) (b : Bool) (i : Nat) (hi : i < n) :
    (shiftIn v b).1.getLsbD i = if i = n - 1 then b else v.getLsbD (i + 1) := by
  have hle : n ≤ n - 1 + 1 := by omega
  by_cases h : i = n - 1
  · subst h
    simp [shiftIn, hi, BitVec.getLsbD_of_ge v (1 + (n - 1)) (by omega)]
  · have : i < n - 1 := by omega
    simp [shiftIn, h, this, Nat.add_comm 1 i]

@[simp] theorem shiftIn_snd {n : Nat} (v : BitVec n) (b : Bool) : (shiftIn v b).2 = v.getLsbD 0 := rfl

/-- A register index in integer bits (R60). -/
theorem idx_eq_getLsbD {n : Nat} (v : BitVec n) (i : Nat) (hi : i < n) :
    idx v i = v.getLsbD (n - 1 - i) := by
  simp [idx, BitVec.getMsbD, hi]

/-- A shift by one, in register indices (R121). -/
theorem idx_shiftIn_zero {n : Nat} (v : BitVec n) (b : Bool) (hn : 0 < n) :
    idx (shiftIn v b).1 0 = b := by
  rw [idx_eq_getLsbD _ _ hn, shiftIn_getLsbD _ _ _ (by omega)]
  simp

theorem idx_shiftIn_succ {n : Nat} (v : BitVec n) (b : Bool) (i : Nat) (hi : i + 1 < n) :
    idx (shiftIn v b).1 (i + 1) = idx v i := by
  rw [idx_eq_getLsbD _ _ hi, idx_eq_getLsbD _ _ (by omega), shiftIn_getLsbD _ _ _ (by omega),
    if_neg (by omega)]
  congr 1
  omega

end Sys2Proof.Machine
end

