-- ==== Sys2Proof/Laws/Dispatch.lean ====
section
/-! SUPPORT. What `exec` does, said once: every arm answers the command of its class with the
command's pseudocode. -/

namespace Sys2Proof.Machine

open Sys2Proof

/-- The pseudocode of every command. -/
def commandBody : Instr → State → Result
  | .nop => nopBody
  | .engReset ep => engResetBody ep
  | .engLoad ep x => engLoadBody ep x
  | .engMix ep x => engMixBody ep x
  | .engClk ep iv ib => engClkBody ep iv ib
  | .engKs ep n => engKsBody ep n
  | .engRdstate ep => engRdstateBody ep
  | .prngSeed ep d => prngSeedBody ep d
  | .prngClk ep => prngClkBody ep
  | .prngNonce ep d => prngNonceBody ep d
  | .prngRdstate ep => prngRdstateBody ep
  | .suc d => sucBody d
  | .filter v => filterBody v
  | .setUid d => setUidBody d
  | .setKey ep k => setKeyBody ep k
  | .setSeed ep d => setSeedBody ep d
  | .setTicks ep d => setTicksBody ep d
  | .sessionNew => sessionNewBody
  | .authStep => authStepBody
  | .wireWrNt d => wireWrBody .nt d
  | .wireWrNr d => wireWrBody .nr d
  | .wireWrAr d => wireWrBody .ar d
  | .wireWrAt d => wireWrBody .at_ d
  | .rdStatus => rdStatusBody
  | .rdWireNt => rdWireBody .nt
  | .rdWireNr => rdWireBody .nr
  | .rdWireAr => rdWireBody .ar
  | .rdWireAt => rdWireBody .at_

/-- Every arm of `exec` answers its command's class with its command's pseudocode. -/
theorem exec_eq_answer (i : Instr) (s : State) :
    exec i s = answer (Safety.classOf i) s (commandBody i s) := by
  cases i <;> rfl

/-- What a command can do: its pseudocode returns, or it raises an error and nothing else of it
remains. -/
theorem exec_cases {i : Instr} {s u : State} (h : exec i s = .next u) :
    (∃ t d, commandBody i s = .ok (t, d) ∧ u = t.respond .ok d)
    ∨ (∃ e, commandBody i s = .error e ∧ u = s.raiseError (Safety.classOf i) e) :=
  answer_cases (by rw [← exec_eq_answer]; exact h)

end Sys2Proof.Machine
end

