-- ==== Sys2Proof/Laws/Prng.lean ====
section
/-! SUPPORT. The laws of the PRNG's clock, of nonce generation and of `suc` (42_prng.md rules R160
to R168). -/

namespace Sys2Proof.Machine

open Sys2Proof

@[simp] theorem prngClockN_zero (v : Reg16) : prngClockN 0 v = v := rfl

theorem prngClockN_succ (n : Nat) (v : Reg16) :
    prngClockN (n + 1) v = prngClockN n (prngClock v).1 := rfl

/-- `m + n` clocks are `m` clocks and then `n`. -/
theorem prngClockN_add (m n : Nat) (v : Reg16) :
    prngClockN (m + n) v = prngClockN n (prngClockN m v) := by
  induction m generalizing v with
  | zero => simp
  | succ m ih => rw [Nat.succ_add, prngClockN_succ, ih, prngClockN_succ]

/-- The last of `n + 1` clocks. -/
theorem prngClockN_succ' (n : Nat) (v : Reg16) :
    prngClockN (n + 1) v = (prngClock (prngClockN n v)).1 := by
  rw [prngClockN_add n 1]
  rfl

/-- The feedback in integer bits (R160). -/
theorem prngFeedback_eq (v : Reg16) :
    prngFeedback v
      = (v.getLsbD 5 ^^ (v.getLsbD 3 ^^ (v.getLsbD 2 ^^ v.getLsbD 0))) := by
  simp [prngFeedback, xorBits, tap, idx, BitVec.getMsbD]

@[simp] theorem prngClock_snd (v : Reg16) : (prngClock v).2 = v.getLsbD 0 := rfl

/-- A clock, bit by bit (R161). -/
theorem prngClock_getLsbD (v : Reg16) (i : Nat) (hi : i < 16) :
    (prngClock v).1.getLsbD i = if i = 15 then prngFeedback v else v.getLsbD (i + 1) :=
  shiftIn_getLsbD v _ i hi

/-- The all-zero state is a fixed point of the clock (R162). -/
@[simp] theorem prngClock_zero : prngClock 0 = (0, false) := by decide

/-- The clock never sends a non-zero value to 0: the bit it discards is a tap (R163). -/
theorem prngClock_ne_zero {v : Reg16} (h : v ≠ 0) : (prngClock v).1 ≠ 0 := by
  intro h0
  apply h
  have hb : ∀ i, i < 16 → (if i = 15 then prngFeedback v else v.getLsbD (i + 1)) = false := by
    intro i hi
    rw [← prngClock_getLsbD v i hi, h0]
    simp
  have hf := hb 15 (by omega)
  rw [if_pos rfl, prngFeedback_eq] at hf
  apply BitVec.eq_of_getLsbD_eq
  intro i hi
  have key : ∀ j, 1 ≤ j → j < 16 → v.getLsbD j = false := by
    intro j h1 h2
    have := hb (j - 1) (by omega)
    rw [if_neg (by omega)] at this
    rw [← this]
    congr 1
    omega
  rcases Nat.eq_zero_or_pos i with rfl | hp
  · rw [key 5 (by omega) (by omega), key 3 (by omega) (by omega), key 2 (by omega) (by omega)] at hf
    simpa using hf
  · rw [key i hp hi]
    simp

theorem prngClockN_ne_zero (n : Nat) {v : Reg16} (h : v ≠ 0) : prngClockN n v ≠ 0 := by
  induction n generalizing v with
  | zero => exact h
  | succ n ih => exact ih (prngClock_ne_zero h)

/-- What `gen_nonce` answers, whole (R164). -/
theorem genNonce_ok {seed : Reg16} {ticks : BitVec 16} (ht : ticks.toNat % 16 = 0) (hs : seed ≠ 0) :
    genNonce seed ticks = .ok
      (prngClockN ticks.toNat seed ++ prngClockN 16 (prngClockN ticks.toNat seed),
        prngClockN 16 (prngClockN 16 (prngClockN ticks.toNat seed))) := by
  have h1 : (ticks.toNat % 16 == 0) = true := by simpa using ht
  have h2 : (seed != 0) = true := by simpa using hs
  simp only [genNonce, Config.tickUnit, Config.halfClocks, h1, h2, require_true, except_bind_ok,
    except_pure]

theorem genNonce_badTicks {seed : Reg16} {ticks : BitVec 16} (ht : ticks.toNat % 16 ≠ 0) :
    genNonce seed ticks = .error .invalidTickCount := by
  have h1 : (ticks.toNat % 16 == 0) = false := by simpa using ht
  simp only [genNonce, Config.tickUnit, h1, require_false, except_bind_error]

theorem genNonce_zeroSeed {ticks : BitVec 16} (ht : ticks.toNat % 16 = 0) :
    genNonce 0 ticks = .error .zeroSeed := by
  have h1 : (ticks.toNat % 16 == 0) = true := by simpa using ht
  have h2 : ((0 : Reg16) != 0) = false := rfl
  simp only [genNonce, Config.tickUnit, h1, h2, require_true, require_false, except_bind_ok,
    except_bind_error]

/-- What an answer of `gen_nonce` tells (R164). -/
theorem genNonce_eq_ok {seed : Reg16} {ticks : BitVec 16} {nonce : Nonce32} {term : Reg16}
    (h : genNonce seed ticks = .ok (nonce, term)) :
    ticks.toNat % 16 = 0 ∧ seed ≠ 0
      ∧ nonce = prngClockN ticks.toNat seed ++ prngClockN 16 (prngClockN ticks.toNat seed)
      ∧ term = prngClockN 16 (prngClockN 16 (prngClockN ticks.toNat seed)) := by
  by_cases ht : ticks.toNat % 16 = 0
  · by_cases hs : seed = 0
    · rw [hs, genNonce_zeroSeed ht] at h
      cases h
    · rw [genNonce_ok ht hs] at h
      cases h
      exact ⟨ht, hs, rfl, rfl⟩
  · rw [genNonce_badTicks ht] at h
    cases h

/-- The errors `gen_nonce` raises (R164). -/
theorem genNonce_eq_error {seed : Reg16} {ticks : BitVec 16} {e : ErrCode}
    (h : genNonce seed ticks = .error e) : e = .invalidTickCount ∨ e = .zeroSeed := by
  by_cases ht : ticks.toNat % 16 = 0
  · by_cases hs : seed = 0
    · rw [hs, genNonce_zeroSeed ht] at h
      cases h
      exact .inr rfl
    · rw [genNonce_ok ht hs] at h
      cases h
  · rw [genNonce_badTicks ht] at h
    cases h
    exact .inl rfl

/-- The feedback of `suc` in integer bits (R168). -/
theorem sucFeedback_eq (n : Nonce32) :
    sucFeedback n
      = (n.getLsbD 31 ^^ (n.getLsbD 29 ^^ (n.getLsbD 28 ^^ n.getLsbD 26))) := by
  simp [sucFeedback, xorBits, tap, idx, BitVec.getMsbD]

/-- `suc`, bit by bit (R168). -/
theorem sucNonce_getLsbD (n : Nonce32) (i : Nat) (hi : i < 32) :
    (sucNonce n).getLsbD i = if i = 31 then sucFeedback n else n.getLsbD (i + 1) :=
  shiftIn_getLsbD n _ i hi

end Sys2Proof.Machine
end

