-- ==== Sys2Proof/Laws/Effects.lean ====
section
/-! SUPPORT. What a command can do, said once for each class of R221: the state its pseudocode leaves
where it returns, the errors it can raise, and what each error does to the state (60_exceptions.md
rule R283). Claims over all commands follow from these and unfold no command. -/

namespace Sys2Proof.Machine

open Sys2Proof Safety

/-- What the pseudocode of a command of each class leaves where it returns (R221). -/
def Effect (i : Instr) (s t : State) : Prop :=
  match classOf i with
  | .pure => t = s
  | .direct => s.fsm.state.inHandshake = false ∧ t = { s with eng := t.eng, prng := t.prng }
  | .config => s.fsm.state.inHandshake = false ∧ t = { s with cfg := t.cfg }
  | .new => t = s.freshSession
  | .step => transition s = .ok t
  | .wire => s.fsm.state.inHandshake = true ∧ t = { s with wire := t.wire }

/-- Where the pseudocode of a command returns, the state it leaves differs in what its class may write
and in nothing else. -/
theorem effect_of_body {i : Instr} {s t : State} {d : Data48} (h : commandBody i s = .ok (t, d)) :
    Effect i s t := by
  cases i <;>
  simp only [commandBody, nopBody, engResetBody, engLoadBody, engMixBody, engClkBody, engKsBody,
    engRdstateBody, prngSeedBody, prngClkBody, prngNonceBody, prngRdstateBody, sucBody, filterBody,
    setUidBody, setKeyBody, setSeedBody, setTicksBody, sessionNewBody, authStepBody, wireWrBody,
    rdStatusBody, rdWireBody, returnData, except_bind_eq_ok, except_pure, Except.ok.injEq,
    Prod.mk.injEq, gate_eq_ok, require_eq_ok, beq_iff_eq, exists_const] at h <;>
  simp only [Effect, classOf]
  case authStep => obtain ⟨_, h, rfl, _⟩ := h; exact h
  case nop => exact h.1.symm
  case engRdstate => exact h.1.symm
  case prngRdstate => exact h.1.symm
  case filter => exact h.1.symm
  case sessionNew => exact h.1.symm
  case rdStatus => exact h.1.symm
  case rdWireNt => exact h.1.symm
  case rdWireNr => exact h.1.symm
  case rdWireAr => exact h.1.symm
  case rdWireAt => exact h.1.symm
  case suc => obtain ⟨_, _, h, _⟩ := h; exact h.symm
  case engReset => obtain ⟨hg, rfl, _⟩ := h; exact ⟨hg, rfl⟩
  case engLoad => obtain ⟨hg, _, _, rfl, _⟩ := h; exact ⟨hg, rfl⟩
  case engMix => obtain ⟨hg, _, _, rfl, _⟩ := h; exact ⟨hg, rfl⟩
  case engClk => obtain ⟨_, _, hg, _, rfl, _⟩ := h; exact ⟨hg, rfl⟩
  case engKs => obtain ⟨hg, _, _, _, rfl, _⟩ := h; exact ⟨hg, rfl⟩
  case prngSeed => obtain ⟨hg, _, _, _, rfl, _⟩ := h; exact ⟨hg, rfl⟩
  case prngClk => obtain ⟨hg, _, rfl, _⟩ := h; exact ⟨hg, rfl⟩
  case prngNonce => obtain ⟨hg, _, _, _, _, rfl, _⟩ := h; exact ⟨hg, rfl⟩
  case setUid => obtain ⟨hg, _, _, rfl, _⟩ := h; exact ⟨hg, rfl⟩
  case setKey => obtain ⟨hg, rfl, _⟩ := h; exact ⟨hg, rfl⟩
  case setSeed => obtain ⟨hg, _, _, rfl, _⟩ := h; exact ⟨hg, rfl⟩
  case setTicks => obtain ⟨hg, _, _, _, rfl, _⟩ := h; exact ⟨hg, rfl⟩
  case wireWrNt => obtain ⟨hg, _, _, rfl, _⟩ := h; rw [hg]; exact ⟨rfl, rfl⟩
  case wireWrNr => obtain ⟨hg, _, _, rfl, _⟩ := h; rw [hg]; exact ⟨rfl, rfl⟩
  case wireWrAr => obtain ⟨hg, _, _, rfl, _⟩ := h; rw [hg]; exact ⟨rfl, rfl⟩
  case wireWrAt => obtain ⟨hg, _, _, rfl, _⟩ := h; rw [hg]; exact ⟨rfl, rfl⟩

/-- `load` raises `AlreadyPrimed` only (R194). -/
theorem load_error {e : Engine} {x : Reg48} {r : ErrCode} (h : e.load x = .error r) :
    r = .alreadyPrimed ∧ e.primed = true := by
  simpa [Engine.load, except_bind_eq_error, require_eq_error, and_comm] using h

/-- `mix_in` raises `NotPrimed` only (R195). -/
theorem mixIn_error {e : Engine} {x : Reg48} {r : ErrCode} (h : e.mixIn x = .error r) :
    r = .notPrimed ∧ e.primed = false := by
  simpa [Engine.mixIn, except_bind_eq_error, require_eq_error, and_comm] using h

/-- `from_integer` raises `InvalidWidth` only (R124). -/
theorem fromInteger_error {w : Nat} {v : Data48} {r : ErrCode} (h : fromInteger w v = .error r) :
    r = .invalidWidth := by
  rcases fromInteger_cases w v with h' | h' <;> rw [h'] at h <;> cases h
  rfl

/-- A count raises `InvalidWidth` only (R84). -/
theorem operandCount_error {v : Data48} {r : ErrCode} (h : operandCount v = .error r) :
    r = .invalidWidth := by
  rcases Nat.lt_or_ge 48 v.toNat with hv | hv
  · rw [operandCount_of_gt hv] at h
    cases h
    rfl
  · rw [operandCount_of_le hv] at h
    cases h

/-- The arguments of a nonce raise `InvalidWidth` only (R84). -/
theorem operandNonceArgs_error {v : Data48} {r : ErrCode} (h : operandNonceArgs v = .error r) :
    r = .invalidWidth := by
  simp only [operandNonceArgs, except_bind_eq_error, except_pure, reduceCtorEq, and_false,
    exists_const, or_false] at h
  exact fromInteger_error h

/-- The input bit of ENG_CLK is refused for `IV = 0, IB = 1` only (R83). -/
theorem operandInputBit_error {iv ib : Bool} {r : ErrCode} (h : operandInputBit iv ib = .error r) :
    r = .illegalCommand ∧ iv = false ∧ ib = true := by
  cases iv <;> cases ib <;> simp_all [operandInputBit]

/-- The errors the pseudocode of a command of each class can raise. -/
def Raises (i : Instr) (s : State) (e : ErrCode) : Prop :=
  match classOf i with
  | .pure => e = .invalidWidth
  | .direct => (s.fsm.state.inHandshake = true ∧ e = .protocolViolation)
    ∨ (s.fsm.state.inHandshake = false ∧ (e = .alreadyPrimed ∨ e = .notPrimed ∨ e = .invalidWidth
      ∨ e = .zeroSeed ∨ e = .invalidTickCount))
    ∨ e = .illegalCommand
  | .config => (s.fsm.state.inHandshake = true ∧ e = .protocolViolation)
    ∨ (s.fsm.state.inHandshake = false ∧ (e = .invalidWidth ∨ e = .invalidTickCount))
  | .new => False
  | .step => transition s = .error e
  | .wire => e = .protocolViolation ∨ (s.fsm.state.inHandshake = true ∧ e = .invalidWidth)

/-- The pseudocode of a command raises an error of its class and no other. -/
theorem raises_of_body {i : Instr} {s : State} {e : ErrCode} (h : commandBody i s = .error e) :
    Raises i s e := by
  cases i <;>
  simp only [commandBody, nopBody, engResetBody, engLoadBody, engMixBody, engClkBody, engKsBody,
    engRdstateBody, prngSeedBody, prngClkBody, prngNonceBody, prngRdstateBody, sucBody, filterBody,
    setUidBody, setKeyBody, setSeedBody, setTicksBody, sessionNewBody, authStepBody, wireWrBody,
    rdStatusBody, rdWireBody, returnData, except_bind_eq_error, except_pure, reduceCtorEq,
    or_false, and_false, gate_eq_ok, gate_eq_error, require_eq_error, require_eq_ok, beq_iff_eq,
    exists_const,
    exists_false] at h <;>
  simp only [Raises, classOf]
  case suc => exact fromInteger_error h
  case authStep => exact h
  case engReset => exact .inl h
  case setKey => exact .inl h
  case engLoad =>
    rcases h with h | ⟨hg, h⟩
    · exact .inl h
    · exact .inr (.inl ⟨hg, .inl (load_error h).1⟩)
  case engMix =>
    rcases h with h | ⟨hg, h⟩
    · exact .inl h
    · exact .inr (.inl ⟨hg, .inr (.inl (mixIn_error h).1)⟩)
  case engClk =>
    rcases h with h | ⟨_, _, h | ⟨hg, _, h⟩⟩
    · exact .inr (.inr (operandInputBit_error h).1)
    · exact .inl h
    · exact .inr (.inl ⟨hg, .inr (.inl h)⟩)
  case engKs =>
    rcases h with h | ⟨hg, h | ⟨_, _, _, h⟩⟩
    · exact .inl h
    · exact .inr (.inl ⟨hg, .inr (.inr (.inl (operandCount_error h)))⟩)
    · exact .inr (.inl ⟨hg, .inr (.inl h)⟩)
  case prngSeed =>
    rcases h with h | ⟨hg, h | ⟨_, _, _, h⟩⟩
    · exact .inl h
    · exact .inr (.inl ⟨hg, .inr (.inr (.inl (fromInteger_error h)))⟩)
    · exact .inr (.inl ⟨hg, .inr (.inr (.inr (.inl h)))⟩)
  case prngClk =>
    rcases h with h | ⟨hg, _, h⟩
    · exact .inl h
    · exact .inr (.inl ⟨hg, .inr (.inr (.inr (.inl h)))⟩)
  case prngNonce =>
    rcases h with h | ⟨hg, h | ⟨_, _, h⟩⟩
    · exact .inl h
    · exact .inr (.inl ⟨hg, .inr (.inr (.inl (operandNonceArgs_error h)))⟩)
    · rcases genNonce_eq_error h with h | h
      · exact .inr (.inl ⟨hg, .inr (.inr (.inr (.inr h)))⟩)
      · exact .inr (.inl ⟨hg, .inr (.inr (.inr (.inl h)))⟩)
  case setUid =>
    rcases h with h | ⟨hg, h⟩
    · exact .inl h
    · exact .inr ⟨hg, .inl (fromInteger_error h)⟩
  case setSeed =>
    rcases h with h | ⟨hg, h⟩
    · exact .inl h
    · exact .inr ⟨hg, .inl (fromInteger_error h)⟩
  case setTicks =>
    rcases h with h | ⟨hg, h | ⟨_, _, _, h⟩⟩
    · exact .inl h
    · exact .inr ⟨hg, .inl (fromInteger_error h)⟩
    · exact .inr ⟨hg, .inr h⟩
  all_goals
    rcases h with h | ⟨hg, h⟩
    · exact .inl h.2
    · exact .inr ⟨by rw [hg]; rfl, fromInteger_error h⟩

/-- The errors a transition raises, and where (R228 to R232). `NotPrimed` comes only from a tag engine
that T2 left unprimed, which it never does. -/
theorem transition_error {s : State} {e : ErrCode} (h : transition s = .error e) :
    e = .protocolViolation ∧ s.fsm.state.terminal = true
    ∨ s.fsm.state.terminal = false ∧ (e = .invalidTickCount ∨ e = .zeroSeed ∨ e = .alreadyPrimed
      ∨ e = .authenticationFailed ∨ e = .desynchronizedState
      ∨ (e = .notPrimed ∧ s.fsm.state = .challengeSent ∧ s.eng.tag.primed = false)) := by
  unfold transition at h
  split at h <;> rename_i hs <;> simp only [hs, FsmState.terminal]
  · simp only [transitionT1, except_bind_eq_error, except_pure, reduceCtorEq, exists_false,
      or_false, and_false] at h
    rcases genNonce_eq_error h with h | h <;> simp [h]
  · simp only [transitionT2, except_bind_eq_error, except_pure, reduceCtorEq, exists_false,
      or_false, and_false] at h
    rcases h with h | ⟨_, _, h | ⟨a, ha, h | ⟨_, _, h⟩⟩⟩
    · simp [(load_error h).1]
    · simp [(load_error h).1]
    · rcases genNonce_eq_error h with h | h <;> simp [h]
    · have := (mixIn_error h).2
      have : a.primed = true := by
        cases hp : s.eng.reader.primed <;> simp [Engine.load, hp] at ha
        rw [← ha]
      simp_all [Engine.withReg]
  · simp only [transitionT3, except_bind_eq_error, except_pure, reduceCtorEq, exists_false,
      or_false, and_false, require_eq_error, beq_eq_false_iff_ne] at h
    rcases h with h | ⟨_, _, _, h⟩
    · simp [(mixIn_error h).1, (show _ from (mixIn_error h).2 : s.eng.tag.primed = false)]
    · simp [h]
  · simp only [transitionT4, except_bind_eq_error, except_pure, reduceCtorEq, exists_false,
      or_false, and_false, require_eq_error, require_eq_ok] at h
    rcases h with h | ⟨_, _, h⟩
    · simp [h]
    · simp [h]
  all_goals cases h; simp

/-- A transition moves the state machine one edge on and leaves `fsm.fail` (R220). -/
theorem transition_fsm {s t : State} (h : transition s = .ok t) :
    t.fsm.fail = s.fsm.fail
    ∧ ((s.fsm.state = .idle ∧ t.fsm.state = .nonceIssued)
      ∨ (s.fsm.state = .nonceIssued ∧ t.fsm.state = .challengeSent)
      ∨ (s.fsm.state = .challengeSent ∧ t.fsm.state = .responseVerified)
      ∨ (s.fsm.state = .responseVerified ∧ t.fsm.state = .authenticated)) := by
  unfold transition at h
  split at h <;> rename_i hs
  · simp only [transitionT1, except_bind_eq_ok, except_pure, Except.ok.injEq] at h
    obtain ⟨_, _, rfl⟩ := h
    simp [hs]
  · simp only [transitionT2, except_bind_eq_ok, except_pure, Except.ok.injEq] at h
    obtain ⟨_, _, _, _, _, _, _, _, rfl⟩ := h
    simp [hs]
  · simp only [transitionT3, except_bind_eq_ok, except_pure, Except.ok.injEq] at h
    obtain ⟨_, _, _, _, rfl⟩ := h
    simp [hs]
  · simp only [transitionT4, except_bind_eq_ok, except_pure, Except.ok.injEq] at h
    obtain ⟨_, _, _, _, rfl⟩ := h
    simp [hs]
  all_goals cases h

theorem inHandshake_iff {s : State} : InHandshake s ↔ s.fsm.state.inHandshake = true := by
  unfold InHandshake
  cases s.fsm.state <;> simp [FsmState.inHandshake]

theorem outside_iff {s : State} : Outside s ↔ s.fsm.state.inHandshake = false := by
  unfold Outside
  cases s.fsm.state <;> simp [FsmState.inHandshake]

theorem terminal_iff {s : State} : Terminal s ↔ s.fsm.state.terminal = true := by
  unfold Terminal
  cases s.fsm.state <;> simp [FsmState.terminal]

theorem outside_of_terminal {s : State} (h : Terminal s) : Outside s := by
  rcases h with h | h <;> simp [Outside, h]

theorem gate_outside {s : State} (h : Outside s) : gate s = .ok () :=
  gate_of_outside (outside_iff.1 h)

theorem gate_handshake {s : State} (h : InHandshake s) : gate s = .error .protocolViolation :=
  gate_of_inHandshake (inHandshake_iff.1 h)

/-- A direct command in handshake enters `Failed` (R283). -/
theorem raiseError_direct_handshake {s : State} (h : InHandshake s) :
    s.raiseError .direct .protocolViolation = failsWith s .protocolViolation := by
  rw [inHandshake_iff] at h
  rw [raiseError_of_enters (by simp [entersFailed, h])]
  rfl

/-- A direct command's error outside a handshake leaves `fsm` (R283). -/
theorem raiseError_direct_outside {s : State} (h : Outside s) (e : ErrCode) :
    s.raiseError .direct e = refusedWith s e := by
  rw [outside_iff] at h
  rw [raiseError_of_not_enters (by simp [entersFailed, h])]
  rfl

/-- A configuration command in handshake enters `Failed` (R283). -/
theorem raiseError_config_handshake {s : State} (h : InHandshake s) :
    s.raiseError .config .protocolViolation = failsWith s .protocolViolation := by
  rw [inHandshake_iff] at h
  rw [raiseError_of_enters (by simp [entersFailed, h])]
  rfl

/-- A configuration command's operand error in `Idle` enters `Failed` (R283). -/
theorem raiseError_config_idle {s : State} (h : s.fsm.state = .idle) {e : ErrCode}
    (he : e = .invalidWidth ∨ e = .invalidTickCount) :
    s.raiseError .config e = failsWith s e := by
  rw [raiseError_of_enters (by simp [entersFailed, h, he])]
  rfl

/-- A configuration command's error in a terminal state leaves `fsm` (R283). -/
theorem raiseError_config_terminal {s : State} (h : Terminal s) (e : ErrCode) :
    s.raiseError .config e = refusedWith s e := by
  rw [raiseError_of_not_enters (by rcases h with h | h <;> simp [entersFailed, h, FsmState.inHandshake])]
  rfl

/-- An error of AUTH_STEP before the handshake has ended enters `Failed` (R283). -/
theorem raiseError_step {s : State} (h : ¬ Terminal s) (e : ErrCode) :
    s.raiseError .step e = failsWith s e := by
  rw [raiseError_of_enters (by rw [terminal_iff] at h; simp [entersFailed, h])]
  rfl

/-- An error of a wire command before the handshake has ended enters `Failed` (R283). -/
theorem raiseError_wire {s : State} (h : ¬ Terminal s) {e : ErrCode}
    (he : e = .protocolViolation ∨ e = .invalidWidth) :
    s.raiseError .wire e = failsWith s e := by
  rw [raiseError_of_enters (by rw [terminal_iff] at h; simp [entersFailed, h, he])]
  rfl

/-- An error of a wire command in a terminal state leaves `fsm` (R283). -/
theorem raiseError_wire_terminal {s : State} (h : Terminal s) (e : ErrCode) :
    s.raiseError .wire e = refusedWith s e := by
  rw [raiseError_of_not_enters (by rw [terminal_iff] at h; simp [entersFailed, h])]
  rfl

end Sys2Proof.Machine
end

