-- ==== Sys2Proof/Laws/Engine.lean ====
section
/-! SUPPORT. The laws of the filter, of the engine's clock and of the keystream (41_filter.md,
43_engine.md rules R191 to R198). -/

namespace Sys2Proof.Machine

open Sys2Proof

/-- The filter in integer bits (R143). -/
theorem filterBit_eq (v : Reg48) :
    filterBit v =
      fC (fA (v.getLsbD 38) (v.getLsbD 36) (v.getLsbD 34) (v.getLsbD 32))
         (fB (v.getLsbD 30) (v.getLsbD 28) (v.getLsbD 26) (v.getLsbD 24))
         (fB (v.getLsbD 22) (v.getLsbD 20) (v.getLsbD 18) (v.getLsbD 16))
         (fA (v.getLsbD 14) (v.getLsbD 12) (v.getLsbD 10) (v.getLsbD 8))
         (fB (v.getLsbD 6) (v.getLsbD 4) (v.getLsbD 2) (v.getLsbD 0)) := by
  simp [filterBit, idx, BitVec.getMsbD]

/-- The linear feedback in integer bits (R191). -/
theorem engFeedback_eq (v : Reg48) :
    engFeedback v =
      (v.getLsbD 47 ^^ (v.getLsbD 42 ^^ (v.getLsbD 38 ^^ (v.getLsbD 37 ^^ (v.getLsbD 35
        ^^ (v.getLsbD 33 ^^ (v.getLsbD 32 ^^ (v.getLsbD 30 ^^ (v.getLsbD 28 ^^ (v.getLsbD 23
        ^^ (v.getLsbD 22 ^^ (v.getLsbD 20 ^^ (v.getLsbD 18 ^^ (v.getLsbD 12 ^^ (v.getLsbD 8
        ^^ (v.getLsbD 6 ^^ (v.getLsbD 5 ^^ v.getLsbD 4))))))))))))))))) := by
  simp [engFeedback, xorBits, tap, idx, BitVec.getMsbD]

/-- A clock, bit by bit (R192). -/
theorem engClock_getLsbD (v : Reg48) (input : Option Bool) (i : Nat) (hi : i < 48) :
    (engClock v input).1.getLsbD i
      = if i = 47 then (engFeedback v ^^ input.getD false) else v.getLsbD (i + 1) :=
  shiftIn_getLsbD v _ i hi

@[simp] theorem engClock_snd (v : Reg48) (input : Option Bool) :
    (engClock v input).2 = filterBit (engClock v input).1 := rfl

/-- The register after `n` clocks without input. -/
def engClockN : Nat → Reg48 → Reg48
  | 0, v => v
  | n + 1, v => engClockN n (engClock v none).1

@[simp] theorem engClockN_zero (v : Reg48) : engClockN 0 v = v := rfl

theorem engClockN_succ (n : Nat) (v : Reg48) :
    engClockN (n + 1) v = engClockN n (engClock v none).1 := rfl

theorem engClockN_add (m n : Nat) (v : Reg48) :
    engClockN (m + n) v = engClockN n (engClockN m v) := by
  induction m generalizing v with
  | zero => simp
  | succ m ih => rw [Nat.succ_add, engClockN_succ, ih, engClockN_succ]

theorem engClockN_succ' (n : Nat) (v : Reg48) :
    engClockN (n + 1) v = (engClock (engClockN n v) none).1 := by
  rw [engClockN_add n 1]
  rfl

@[simp] theorem keystreamFrom_zero (k : Nat) (v : Reg48) (ks : Data48) :
    keystreamFrom 0 k v ks = (v, ks) := rfl

theorem keystreamFrom_succ (n k : Nat) (v : Reg48) (ks : Data48) :
    keystreamFrom (n + 1) k v ks =
      keystreamFrom n (k + 1) (engClock v none).1 (ks ||| (bitData (engClock v none).2 <<< k)) := rfl

theorem keystreamFrom_fst (n k : Nat) (v : Reg48) (ks : Data48) :
    (keystreamFrom n k v ks).1 = engClockN n v := by
  induction n generalizing k v ks with
  | zero => rfl
  | succ n ih => rw [keystreamFrom_succ, ih, engClockN_succ]

/-- The register a keystream leaves: one clock a bit (R193). -/
@[simp] theorem keystream_fst (v : Reg48) (n : Nat) : (keystream v n).1 = engClockN n v :=
  keystreamFrom_fst n 0 v 0

@[simp] theorem bitData_getLsbD (b : Bool) (i : Nat) :
    (bitData b).getLsbD i = (decide (i = 0) && b) := by
  rcases Nat.eq_zero_or_pos i with rfl | h
  · simp [bitData]
  · simp [bitData, show ¬ i = 0 by omega]

/-- The bits of the keystream loop: those it started from, and the filter of each clock. -/
theorem keystreamFrom_getLsbD (n k : Nat) (v : Reg48) (ks : Data48) (i : Nat) (hi : i < 48) :
    (keystreamFrom n k v ks).2.getLsbD i =
      (ks.getLsbD i
        || (decide (k ≤ i ∧ i < k + n) && filterBit (engClockN (i - k + 1) v))) := by
  induction n generalizing k v ks with
  | zero => simp
  | succ n ih =>
    rw [keystreamFrom_succ, ih]
    simp only [BitVec.getLsbD_or, BitVec.getLsbD_shiftLeft, bitData_getLsbD, engClock_snd, hi,
      decide_true, Bool.true_and, Bool.or_assoc]
    congr 1
    rcases Nat.lt_trichotomy i k with h | h | h
    · simp [h, show ¬ (k + 1 ≤ i) by omega, show ¬ (k ≤ i) by omega]
    · subst h
      simp [engClockN_succ]
    · have e : i - k + 1 = (i - (k + 1) + 1) + 1 := by omega
      simp only [show ¬ i < k by omega, show ¬ i - k = 0 by omega, decide_false, Bool.not_false,
        Bool.true_and, Bool.false_and, Bool.false_or]
      have d : (k + 1 ≤ i ∧ i < k + 1 + n) ↔ (k ≤ i ∧ i < k + (n + 1)) := by omega
      simp only [e, engClockN_succ, d]

/-- Bit `i` of a keystream word (R62, R193). -/
theorem keystream_getLsbD (v : Reg48) (n i : Nat) (hi : i < 48) :
    (keystream v n).2.getLsbD i = (decide (i < n) && filterBit (engClockN (i + 1) v)) := by
  unfold keystream
  rw [keystreamFrom_getLsbD n 0 v 0 i hi]
  simp

/-- The clock reads every bit of the register but the oldest (R198). -/
theorem engClock_congr {v w : Reg48} (h : ∀ i, 1 ≤ i → i < 48 → v.getLsbD i = w.getLsbD i)
    (input : Option Bool) : engClock v input = engClock w input := by
  have hf : engFeedback v = engFeedback w := by
    rw [engFeedback_eq, engFeedback_eq]
    simp only [h 47 (by omega) (by omega), h 42 (by omega) (by omega), h 38 (by omega) (by omega),
      h 37 (by omega) (by omega), h 35 (by omega) (by omega), h 33 (by omega) (by omega),
      h 32 (by omega) (by omega), h 30 (by omega) (by omega), h 28 (by omega) (by omega),
      h 23 (by omega) (by omega), h 22 (by omega) (by omega), h 20 (by omega) (by omega),
      h 18 (by omega) (by omega), h 12 (by omega) (by omega), h 8 (by omega) (by omega),
      h 6 (by omega) (by omega), h 5 (by omega) (by omega), h 4 (by omega) (by omega)]
  have h1 : (engClock v input).1 = (engClock w input).1 := by
    apply BitVec.eq_of_getLsbD_eq
    intro i hi
    rw [engClock_getLsbD v input i hi, engClock_getLsbD w input i hi, hf]
    split
    · rfl
    · exact h (i + 1) (by omega) (by omega)
  exact Prod.ext h1 (by rw [engClock_snd, engClock_snd, h1])

/-- Two registers that clock alike give the same keystream, once a bit is taken. -/
theorem keystream_congr {v w : Reg48} (h : (engClock v none).1 = (engClock w none).1) {n : Nat}
    (hn : 0 < n) : keystream v n = keystream w n := by
  obtain ⟨m, rfl⟩ : ∃ m, n = m + 1 := ⟨n - 1, by omega⟩
  have h2 : (engClock v none).2 = (engClock w none).2 := by rw [engClock_snd, engClock_snd, h]
  simp only [keystream, keystreamFrom_succ, h, h2]

end Sys2Proof.Machine
end

