-- ==== Sys2Proof/Laws/PerInstr.lean ====
section
/-! SUPPORT. The family of laws made for each instruction: its word is one a row of the opcode map
matches (30_encoding.md rule R85). -/

namespace Sys2Proof.Laws.EncodeMatchesRow

open Sys2Proof

/-- The word of the instruction has the fixed bits of a row of the opcode map (R85). -/
def Statement (i : Instr) : Prop := ∃ r ∈ opcodeRows, encode i &&& r.mask = r.matchBits

theorem data0_match (op : BitVec 8) : packData op 0 &&& 0xFFFFFFFFFFFFFFFF = packData op 0 := by
  exact BitVec.and_allOnes

theorem ep0_match (op : BitVec 8) (ep : Endpoint) :
    packEp op ep 0 &&& 0xFF7FFFFFFFFFFFFF = packData op 0 := by
  have h : (0xFF7FFFFFFFFFFFFF : CmdWord) = packWord 0xFF false 0x1F true true 0xFFFFFFFFFFFF := by
    decide
  rw [h, packEp, packWord_and, packData]
  congr 1
  · exact BitVec.and_allOnes
  · simp

theorem epData_match (op : BitVec 8) (ep : Endpoint) (d : Data48) :
    packEp op ep d &&& 0xFF7F000000000000 = packData op 0 := by
  have h : (0xFF7F000000000000 : CmdWord) = packWord 0xFF false 0x1F true true 0 := by decide
  rw [h, packEp, packWord_and, packData]
  congr 1
  · exact BitVec.and_allOnes
  · simp
  · simp

theorem data_match (op : BitVec 8) (d : Data48) :
    packData op d &&& 0xFFFF000000000000 = packData op 0 := by
  have h : (0xFFFF000000000000 : CmdWord) = packWord 0xFF true 0x1F true true 0 := by decide
  rw [h, packData, packWord_and, packData]
  congr 1
  · exact BitVec.and_allOnes
  · simp

theorem clk_match (op : BitVec 8) (ep : Endpoint) (iv ib : Bool) :
    packWord op ep.bit 0 iv ib 0 &&& 0xFF7CFFFFFFFFFFFF = packData op 0 := by
  have h : (0xFF7CFFFFFFFFFFFF : CmdWord) = packWord 0xFF false 0x1F false false 0xFFFFFFFFFFFF := by
    decide
  rw [h, packWord_and, packData]
  congr 1
  · exact BitVec.and_allOnes
  · simp
  · simp
  · simp

theorem of_row {i : Instr} (r : OpcodeRow) (hr : rowOf r.op = some r)
    (h : encode i &&& r.mask = r.matchBits) : Statement i :=
  ⟨r, (rowOf_mem hr).1, h⟩

theorem nop : Statement .nop :=
  of_row ⟨0x00, 0x0000000000000000, 0xFFFFFFFFFFFFFFFF, _⟩ rfl (data0_match 0x00)

theorem engReset (ep : Endpoint) : Statement (.engReset ep) :=
  of_row ⟨0x10, 0x1000000000000000, 0xFF7FFFFFFFFFFFFF, _⟩ rfl (ep0_match 0x10 ep)

theorem engLoad (ep : Endpoint) (x : Data48) : Statement (.engLoad ep x) :=
  of_row ⟨0x11, 0x1100000000000000, 0xFF7F000000000000, _⟩ rfl (epData_match 0x11 ep x)

theorem engMix (ep : Endpoint) (x : Data48) : Statement (.engMix ep x) :=
  of_row ⟨0x12, 0x1200000000000000, 0xFF7F000000000000, _⟩ rfl (epData_match 0x12 ep x)

theorem engClk (ep : Endpoint) (iv ib : Bool) : Statement (.engClk ep iv ib) :=
  of_row ⟨0x13, 0x1300000000000000, 0xFF7CFFFFFFFFFFFF, _⟩ rfl (clk_match 0x13 ep iv ib)

theorem engKs (ep : Endpoint) (n : Data48) : Statement (.engKs ep n) :=
  of_row ⟨0x14, 0x1400000000000000, 0xFF7F000000000000, _⟩ rfl (epData_match 0x14 ep n)

theorem engRdstate (ep : Endpoint) : Statement (.engRdstate ep) :=
  of_row ⟨0x15, 0x1500000000000000, 0xFF7FFFFFFFFFFFFF, _⟩ rfl (ep0_match 0x15 ep)

theorem prngSeed (ep : Endpoint) (data : Data48) : Statement (.prngSeed ep data) :=
  of_row ⟨0x20, 0x2000000000000000, 0xFF7F000000000000, _⟩ rfl (epData_match 0x20 ep data)

theorem prngClk (ep : Endpoint) : Statement (.prngClk ep) :=
  of_row ⟨0x21, 0x2100000000000000, 0xFF7FFFFFFFFFFFFF, _⟩ rfl (ep0_match 0x21 ep)

theorem prngNonce (ep : Endpoint) (data : Data48) : Statement (.prngNonce ep data) :=
  of_row ⟨0x22, 0x2200000000000000, 0xFF7F000000000000, _⟩ rfl (epData_match 0x22 ep data)

theorem prngRdstate (ep : Endpoint) : Statement (.prngRdstate ep) :=
  of_row ⟨0x23, 0x2300000000000000, 0xFF7FFFFFFFFFFFFF, _⟩ rfl (ep0_match 0x23 ep)

theorem suc (data : Data48) : Statement (.suc data) :=
  of_row ⟨0x24, 0x2400000000000000, 0xFFFF000000000000, _⟩ rfl (data_match 0x24 data)

theorem filter (v : Data48) : Statement (.filter v) :=
  of_row ⟨0x30, 0x3000000000000000, 0xFFFF000000000000, _⟩ rfl (data_match 0x30 v)

theorem setUid (data : Data48) : Statement (.setUid data) :=
  of_row ⟨0x40, 0x4000000000000000, 0xFFFF000000000000, _⟩ rfl (data_match 0x40 data)

theorem setKey (ep : Endpoint) (k : Data48) : Statement (.setKey ep k) :=
  of_row ⟨0x41, 0x4100000000000000, 0xFF7F000000000000, _⟩ rfl (epData_match 0x41 ep k)

theorem setSeed (ep : Endpoint) (data : Data48) : Statement (.setSeed ep data) :=
  of_row ⟨0x42, 0x4200000000000000, 0xFF7F000000000000, _⟩ rfl (epData_match 0x42 ep data)

theorem setTicks (ep : Endpoint) (data : Data48) : Statement (.setTicks ep data) :=
  of_row ⟨0x43, 0x4300000000000000, 0xFF7F000000000000, _⟩ rfl (epData_match 0x43 ep data)

theorem sessionNew : Statement .sessionNew :=
  of_row ⟨0x50, 0x5000000000000000, 0xFFFFFFFFFFFFFFFF, _⟩ rfl (data0_match 0x50)

theorem authStep : Statement .authStep :=
  of_row ⟨0x51, 0x5100000000000000, 0xFFFFFFFFFFFFFFFF, _⟩ rfl (data0_match 0x51)

theorem wireWrNt (data : Data48) : Statement (.wireWrNt data) :=
  of_row ⟨0x58, 0x5800000000000000, 0xFFFF000000000000, _⟩ rfl (data_match 0x58 data)

theorem wireWrNr (data : Data48) : Statement (.wireWrNr data) :=
  of_row ⟨0x59, 0x5900000000000000, 0xFFFF000000000000, _⟩ rfl (data_match 0x59 data)

theorem wireWrAr (data : Data48) : Statement (.wireWrAr data) :=
  of_row ⟨0x5A, 0x5A00000000000000, 0xFFFF000000000000, _⟩ rfl (data_match 0x5A data)

theorem wireWrAt (data : Data48) : Statement (.wireWrAt data) :=
  of_row ⟨0x5B, 0x5B00000000000000, 0xFFFF000000000000, _⟩ rfl (data_match 0x5B data)

theorem rdStatus : Statement .rdStatus :=
  of_row ⟨0x60, 0x6000000000000000, 0xFFFFFFFFFFFFFFFF, _⟩ rfl (data0_match 0x60)

theorem rdWireNt : Statement .rdWireNt :=
  of_row ⟨0x61, 0x6100000000000000, 0xFFFFFFFFFFFFFFFF, _⟩ rfl (data0_match 0x61)

theorem rdWireNr : Statement .rdWireNr :=
  of_row ⟨0x62, 0x6200000000000000, 0xFFFFFFFFFFFFFFFF, _⟩ rfl (data0_match 0x62)

theorem rdWireAr : Statement .rdWireAr :=
  of_row ⟨0x63, 0x6300000000000000, 0xFFFFFFFFFFFFFFFF, _⟩ rfl (data0_match 0x63)

theorem rdWireAt : Statement .rdWireAt :=
  of_row ⟨0x64, 0x6400000000000000, 0xFFFFFFFFFFFFFFFF, _⟩ rfl (data0_match 0x64)

end Sys2Proof.Laws.EncodeMatchesRow
end

