-- ==== Sys2Proof/Laws/Step.lean ====
section
/-! SUPPORT. What one step can do, said once, and what the host hears of a word that encodes no
command. -/

namespace Sys2Proof.Machine

open Sys2Proof Safety

/-- The step of a word that decodes. -/
theorem step_of_decode {s : State} {w : CmdWord} {rest : List HostEvent} {i : Instr}
    (hp : s.host.pending = .command w :: rest) (hr : s.host.resetAsserted = false)
    (hd : decode w = .ok i) :
    step s = exec i { s with host := { s.host with pending := rest } } := by
  simp [step, deliver, hp, deliverCommand, State.takeEvent, hr, hd]

/-- A word that does not decode is answered `IllegalCommand` (R86). -/
theorem answeredIllegal_of_error {w : CmdWord} {e : DecodeError} (h : decode w = .error e) :
    AnsweredIllegal w := by
  intro s rest hp hr
  simp [step, deliver, hp, deliverCommand, State.takeEvent, hr, h, State.answerIllegal, State.respond,
    refusedWith, answered]

/-- A row whose commands are all well-formed encodes its command. -/
theorem encodes_of_row {r : OpcodeRow} {make : Endpoint → Data48 → Instr} (op : BitVec 8)
    (hr : rowOf op = some r) (ho : r.matchBits.extractLsb' 56 8 = op)
    (hm : ∀ w, (r.instr w).wf = true)
    (hi : ∀ w : CmdWord, r.instr w
      = make (if w.getLsbD 55 then .reader else .tag) (w.extractLsb' 0 48)) :
    Encodes r.matchBits r.mask make := by
  intro w
  refine ⟨fun h => ?_, fun h1 h2 => ?_⟩
  · rw [decode_of_row op hr h, if_pos (hm w), hi w]
  · obtain ⟨e, he⟩ := decode_of_mismatch op hr (h1.trans ho) h2
    exact answeredIllegal_of_error he

/-- What one step can do: nothing, without an event; a reset, or its release; drop a word while reset
is asserted; answer an illegal word; or run a command. -/
theorem step_cases {s t : State} (h : step s = .next t) :
    (s.host.pending = [] ∧ t = s)
    ∨ (s.host.pending.head? = some .assertReset
        ∧ t = s.takeEvent.hardwareReset.withResetInput true)
    ∨ (s.host.pending.head? = some .releaseReset ∧ t = s.takeEvent.withResetInput false)
    ∨ (s.host.resetAsserted = true ∧ t = s.takeEvent)
    ∨ t = s.takeEvent.answerIllegal
    ∨ ∃ i, Receives s i ∧ exec i s.takeEvent = .next t := by
  unfold step deliver at h
  split at h <;> rename_i u hu
  · split at hu <;> rename_i hp
    · cases hu
      cases h
      exact .inl ⟨hp, rfl⟩
    · cases hu
      cases h
      exact .inr (.inl ⟨by simp [hp], rfl⟩)
    · cases hu
      cases h
      exact .inr (.inr (.inl ⟨by simp [hp], rfl⟩))
    · unfold deliverCommand at hu
      split at hu
      · rename_i hr
        cases hu
        cases h
        exact .inr (.inr (.inr (.inl ⟨hr, rfl⟩)))
      · split at hu
        · cases hu
        · cases hu
          cases h
          exact .inr (.inr (.inr (.inr (.inl rfl))))
  · split at hu <;> rename_i hp
    · cases hu
    · cases hu
    · cases hu
    · unfold deliverCommand at hu
      split at hu
      · cases hu
      · rename_i hr
        split at hu
        · rename_i hd
          cases hu
          exact .inr (.inr (.inr (.inr (.inr ⟨_, ⟨_, _, hp, by simpa using hr, hd⟩, h⟩))))
        · cases hu

end Sys2Proof.Machine
end

