-- ==== Sys2Proof/Tests/Slice0.lean ====
section
/-! SUPPORT. The model's own tests: an ill-formed term, every command's decoding from a word of the
spec, one or two steps of each command with the values of 95_test_vectors.md, and a witness for the
hypotheses of every statement. -/

namespace Sys2Proof.Tests

open Sys2Proof Sys2Proof.Machine Sys2Proof.Safety

/-! ## WellFormed: each check refuses an ill-formed term -/

theorem test_wf_refuses_input_bit_without_valid :
    ¬ (Instr.engClk .tag false true).WellFormed := by decide
theorem test_wf_accepts_input_bit_with_valid :
    (Instr.engClk .reader true true).WellFormed := by decide

/-! ## Decoding: a word of each command, its fields laid out as R80 says
(`OP` 63:56, `EP` 55, `RSV` 54:50, `IV` 49, `IB` 48, `DATA` 47:0) -/

theorem test_decode_nop : decodeTableWord 64 0x0000000000000000 = some (.nop) := by decide
theorem test_decode_engReset :
    decodeTableWord 64 0x1080000000000000 = some (.engReset .reader) := by decide
theorem test_decode_engLoad :
    decodeTableWord 64 0x110000A03DB1A8C0 = some (.engLoad .tag 0x00A03DB1A8C0) := by decide
theorem test_decode_engMix :
    decodeTableWord 64 0x1280000000016801 = some (.engMix .reader 0x16801) := by decide
theorem test_decode_engClk :
    decodeTableWord 64 0x1383000000000000 = some (.engClk .reader true true) := by decide
theorem test_decode_engClk_in0 :
    decodeTableWord 64 0x1302000000000000 = some (.engClk .tag true false) := by decide
theorem test_decode_engClk_none :
    decodeTableWord 64 0x1380000000000000 = some (.engClk .reader false false) := by decide
theorem test_decode_engKs :
    decodeTableWord 64 0x1480000000000020 = some (.engKs .reader 32) := by decide
theorem test_decode_engRdstate :
    decodeTableWord 64 0x1580000000000000 = some (.engRdstate .reader) := by decide
theorem test_decode_prngSeed :
    decodeTableWord 64 0x200000000000104A = some (.prngSeed .tag 0x104A) := by decide
theorem test_decode_prngClk :
    decodeTableWord 64 0x2180000000000000 = some (.prngClk .reader) := by decide
theorem test_decode_prngNonce :
    decodeTableWord 64 0x2200000000A0104A = some (.prngNonce .tag 0x00A0104A) := by decide
theorem test_decode_prngRdstate :
    decodeTableWord 64 0x2300000000000000 = some (.prngRdstate .tag) := by decide
theorem test_decode_suc :
    decodeTableWord 64 0x240000004EDB56C0 = some (.suc 0x4EDB56C0) := by decide
theorem test_decode_filter :
    decodeTableWord 64 0x30000123456789AB = some (.filter 0x0123456789AB) := by decide
theorem test_decode_setUid :
    decodeTableWord 64 0x40000000C2A82DF4 = some (.setUid 0xC2A82DF4) := by decide
theorem test_decode_setKey :
    decodeTableWord 64 0x418000A0B1C2D3F4 = some (.setKey .reader 0x00A0B1C2D3F4) := by decide
theorem test_decode_setSeed :
    decodeTableWord 64 0x4280000000000001 = some (.setSeed .reader 1) := by decide
theorem test_decode_setTicks :
    decodeTableWord 64 0x43000000000000A0 = some (.setTicks .tag 160) := by decide
theorem test_decode_sessionNew :
    decodeTableWord 64 0x5000000000000000 = some (.sessionNew) := by decide
theorem test_decode_authStep : decodeTableWord 64 0x5100000000000000 = some (.authStep) := by decide
theorem test_decode_wireWrNt :
    decodeTableWord 64 0x580000004EDB56C2 = some (.wireWrNt 0x4EDB56C2) := by decide
theorem test_decode_wireWrNr :
    decodeTableWord 64 0x590000003E6E9642 = some (.wireWrNr 0x3E6E9642) := by decide
theorem test_decode_wireWrAr :
    decodeTableWord 64 0x5A000000FD9ABC06 = some (.wireWrAr 0xFD9ABC06) := by decide
theorem test_decode_wireWrAt :
    decodeTableWord 64 0x5B0000004EE5211E = some (.wireWrAt 0x4EE5211E) := by decide
theorem test_decode_rdStatus : decodeTableWord 64 0x6000000000000000 = some (.rdStatus) := by decide
theorem test_decode_rdWireNt : decodeTableWord 64 0x6100000000000000 = some (.rdWireNt) := by decide
theorem test_decode_rdWireNr : decodeTableWord 64 0x6200000000000000 = some (.rdWireNr) := by decide
theorem test_decode_rdWireAr : decodeTableWord 64 0x6300000000000000 = some (.rdWireAr) := by decide
theorem test_decode_rdWireAt : decodeTableWord 64 0x6400000000000000 = some (.rdWireAt) := by decide

/-- V7.2 to V7.6: words that encode no command. -/
theorem test_decode_refuses_data_of_nop : decodeTableWord 64 0x0000000000000001 = none := by decide
theorem test_decode_refuses_unassigned : decodeTableWord 64 0x0100000000000000 = none := by decide
theorem test_decode_refuses_reserved : decodeTableWord 64 0x0004000000000000 = none := by decide
theorem test_decode_refuses_endpoint_of_suc :
    decodeTableWord 64 0x2480000000000001 = none := by decide
theorem test_decode_refuses_input_bit : decodeTableWord 64 0x1301000000000000 = none := by decide
/-- V7.8: a `DATA` bit above the operand's width still decodes. -/
theorem test_decode_keeps_wide_operand :
    decodeTableWord 64 0x4000000100000000 = some (.setUid 0x100000000) := by decide

/-! ## States of program P1 (95_test_vectors.md section 5), each from the one before -/

/-- The state a command leaves. -/
def after (i : Instr) (s : State) : Option State :=
  match exec i s with
  | .next t => some t
  | .fault _ => none
  | .refused _ => none

/-- The answer of a command. -/
def reply (i : Instr) (s : State) : Option Response := (after i s).bind lastResponse

/-- `{ OK, data }`. -/
def done (data : Data48) : Option Response := some ⟨.ok, data⟩

/-- `{ E, 0 }`. -/
def error (e : ErrCode) : Option Response := some ⟨e, 0⟩

/-- The configuration of P1, `Idle`. -/
def idle : State :=
  { State.reset with cfg :=
      ⟨0xC2A82DF4, ⟨0x00A0B1C2D3F4, 0x00A0B1C2D3F4⟩, ⟨0x104A, 0x0001⟩, ⟨160, 0⟩⟩ }

/-- P1 after T1. -/
def nonceIssued : State :=
  { idle with
    prng := ⟨⟨0xFB1E⟩, ⟨0⟩⟩, wire := ⟨0x4EDB56C0, 0, 0, 0⟩, lat := ⟨0x4EDB56C0, 0, 0, 0⟩
    fsm := ⟨.nonceIssued, .ok⟩ }

/-- P1 after T2. -/
def challengeSent : State :=
  { nonceIssued with
    eng := ⟨⟨0x00A03DB1A8C0, true⟩, ⟨0x7D29588ABD3D, true⟩⟩, prng := ⟨⟨0xFB1E⟩, ⟨0x1441⟩⟩
    wire := ⟨0x4EDB56C0, 0x3E6E9652, 0xFD9ABC07, 0⟩, lat := ⟨0x4EDB56C0, 0x4EDB56C0, 0x00016801, 0⟩
    fsm := ⟨.challengeSent, .ok⟩ }

/-- P1 after T3. -/
def responseVerified : State :=
  { challengeSent with
    eng := ⟨⟨0x7D8AA7B97D29, true⟩, ⟨0x7D29588ABD3D, true⟩⟩
    wire := ⟨0x4EDB56C0, 0x3E6E9652, 0xFD9ABC07, 0x4EE5211F⟩
    lat := ⟨0x4EDB56C0, 0x4EDB56C0, 0x00016801, 0x00016801⟩
    fsm := ⟨.responseVerified, .ok⟩ }

/-- P1 after T4. -/
def authenticated : State :=
  { responseVerified with
    eng := ⟨⟨0x7D8AA7B97D29, true⟩, ⟨0x7D8AA7B97D29, true⟩⟩, fsm := ⟨.authenticated, .ok⟩ }

/-- A failed session, as after V8.3. -/
def failed : State := { State.reset with fsm := ⟨.failed, .invalidTickCount⟩ }

/-- Both engines loaded with one value, outside a handshake. -/
def loaded (v : Reg48) : State := { State.reset with eng := ⟨⟨v, true⟩, ⟨v, true⟩⟩ }

/-- Both PRNGs hold one value, outside a handshake. -/
def seeded (v : Reg16) : State := { State.reset with prng := ⟨⟨v⟩, ⟨v⟩⟩ }

/-- The host is about to send one word. -/
def sends (s : State) (w : CmdWord) : State := { s with host := { s.host with pending := [.command w] } }

/-! ## The primitives (V1, V2, V3) -/

/-- V1.2. -/
theorem test_shiftIn_discards_the_oldest :
    shiftIn (0x0123456789AB : Reg48) false = (0x0091A2B3C4D5, true) := by decide
/-- V1.4. -/
theorem test_tap_reads_index_zero_at_the_top :
    tap (0x800000000000 : Reg48) [0, 47] = [true, false] := by
  decide
/-- V2.1 to V2.3 on single inputs: `f_c(0,1,0,1,0) = 1`, where the published `f_c` gives 0. -/
theorem test_fC_is_the_sources :
    fC false true false true false = true ∧ fC true false true false true = false := by decide
/-- V3.4. -/
theorem test_prngClock : prngClock 0x104A = (0x8825, false) := by decide
/-- V4.4. -/
theorem test_genNonce_after_ticks :
    genNonce 0xFFFF 16 = .ok (0xD800F3C0, 0x26D6) := by decide +kernel
/-- V6.4: the bit the clock discards is not read. -/
theorem test_engClock_ignores_the_oldest :
    engClock 0x0123456789AB none = (0x0091A2B3C4D5, false)
      ∧ engClock 0x0123456789AA none = (0x0091A2B3C4D5, false) := by decide +kernel
/-- V6.7. -/
theorem test_keystream_48 :
    keystream 0x0123456789AB 48 = (0x14970EECA0EE, 0x7B52391A752A) := by decide +kernel

/-! ## The commands -/

/-- V7.1. -/
theorem test_nop :
    reply .nop nonceIssued = done 0 := by decide
/-- R199. -/
theorem test_engReset :
    (after (.engReset .reader) (loaded 5)).map (·.eng) = some ⟨⟨5, true⟩, ⟨0, false⟩⟩ := by decide
/-- V9.2 shape: gated. -/
theorem test_engReset_gated :
    reply (.engReset .tag) nonceIssued = error .protocolViolation := by decide
/-- R200 example. -/
theorem test_engLoad :
    (after (.engLoad .tag 0x00A03DB1A8C0) State.reset).map (·.eng)
      = some ⟨⟨0x00A03DB1A8C0, true⟩, ⟨0, false⟩⟩ := by decide
/-- V6.12. -/
theorem test_engLoad_twice :
    reply (.engLoad .tag 6) (loaded 5) = error .alreadyPrimed := by decide
/-- R201 example. -/
theorem test_engMix :
    (after (.engMix .tag 0x0000FFFF0000) (loaded 0x0123456789AB)).map (·.eng.tag.reg)
      = some 0x0123BA9889AB := by decide
/-- V6.11. -/
theorem test_engMix_unprimed :
    reply (.engMix .reader 1) State.reset = error .notPrimed := by decide
/-- R202 example. -/
theorem test_engClk :
    (after (.engClk .reader true true) (loaded 0xFFFFFFFFFFFF)).map
      (fun t => (t.eng.reader.reg, lastResponse t)) = some (0xFFFFFFFFFFFF, done 1) := by decide
/-- V6.14: an input bit of 0 is no input. -/
theorem test_engClk_in0 :
    (after (.engClk .tag true false) (loaded 0x800000000000)).map (·.eng.tag.reg) = some 0xC00000000000 := by decide
/-- R203 example. -/
theorem test_engKs :
    (after (.engKs .tag 32) (loaded 0x00A03DB1A8C0)).map
      (fun t => (t.eng.tag.reg, lastResponse t)) = some (0xBD3D8C3F00A0, done 0x3E6FFE53) := by decide +kernel
/-- V6.18. -/
theorem test_engKs_too_many :
    reply (.engKs .tag 49) State.reset = error .invalidWidth := by decide
/-- P1 line 18. -/
theorem test_engRdstate :
    reply (.engRdstate .tag) responseVerified = done 0x7D8AA7B97D29 := by decide
/-- V8.1. -/
theorem test_prngSeed_zero :
    reply (.prngSeed .tag 0) State.reset = error .zeroSeed := by decide
/-- R170: `0x10000` is too wide, not zero. -/
theorem test_prngSeed_wide :
    reply (.prngSeed .tag 0x10000) State.reset = error .invalidWidth := by decide
/-- R171 example. -/
theorem test_prngClk :
    (after (.prngClk .reader) (seeded 1)).map (fun t => (t.prng.reader.reg, lastResponse t))
      = some (0x8000, done 1) := by decide
/-- V8.2. -/
theorem test_prngClk_zero :
    reply (.prngClk .reader) State.reset = error .zeroSeed := by decide
/-- R172 example (V4.1). -/
theorem test_prngNonce :
    (after (.prngNonce .tag 0x00A0104A) State.reset).map (fun t => (t.prng.tag.reg, lastResponse t))
      = some (0xFB1E, done 0x4EDB56C0) := by decide +kernel
/-- V4.9: the tick count is checked before the seed. -/
theorem test_prngNonce_order :
    reply (.prngNonce .tag 0x00080000) State.reset = error .invalidTickCount := by decide
/-- V9.4. -/
theorem test_prngRdstate :
    reply (.prngRdstate .tag) nonceIssued = done 0xFB1E := by decide
/-- V5.7. -/
theorem test_suc :
    reply (.suc 0x4EDB56C0) nonceIssued = done 0xA76DAB60 := by decide
/-- V5.5: index 5 is a tap. -/
theorem test_suc_tap :
    sucNonce 0x04000000 = 0x82000000 := by decide
/-- V2.6. -/
theorem test_filter :
    reply (.filter 0x555555555555) State.reset = done 1 := by decide
/-- V2.7. -/
theorem test_filter_ignores_the_other_indices :
    reply (.filter 0xAAAAAAAAAAAA) State.reset = done 0 := by decide
/-- P1 line 1. -/
theorem test_setUid :
    (after (.setUid 0xC2A82DF4) State.reset).map (·.cfg.uid) = some 0xC2A82DF4 := by decide
/-- V8.4: in `Failed` an error leaves `fsm`. -/
theorem test_setUid_wide_in_failed :
    (after (.setUid 0x100000000) failed).map (·.fsm) = some ⟨.failed, .invalidTickCount⟩ := by decide
/-- P1 line 3. -/
theorem test_setKey :
    (after (.setKey .reader 0x00A0B1C2D3F4) State.reset).map (·.cfg.key) = some ⟨0, 0x00A0B1C2D3F4⟩ := by decide
/-- V9.3. -/
theorem test_setKey_gated :
    (after (.setKey .tag 1) nonceIssued).map (·.fsm) = some ⟨.failed, .protocolViolation⟩ := by decide
/-- P1 line 4. -/
theorem test_setSeed :
    (after (.setSeed .tag 0x104A) State.reset).map (·.cfg.seed) = some ⟨0x104A, 0⟩ := by decide
/-- V7.10. -/
theorem test_setSeed_wide :
    (after (.setSeed .tag 0x10000) State.reset).map statusWord = some 0x105 := by decide
/-- R226: the largest tick count. -/
theorem test_setTicks :
    (after (.setTicks .tag 65520) State.reset).map (·.cfg.ticks) = some ⟨65520, 0⟩ := by decide
/-- V8.3. -/
theorem test_setTicks_8 :
    (after (.setTicks .reader 8) State.reset).map statusWord = some 0x405 := by decide
/-- V8.12. -/
theorem test_sessionNew :
    (after .sessionNew failed).map statusWord = some 0 := by decide
/-- R227: `cfg` and the PRNGs are kept. -/
theorem test_sessionNew_keeps_prng :
    (after .sessionNew responseVerified).map (fun t => (t.prng.reader.reg, t.cfg == idle.cfg))
      = some (0x1441, true) := by decide
/-- P1, T1 and T2. -/
theorem test_authStep_T1_T2 :
    (after .authStep idle).map (fun t => (t.wire.nt, t.prng.tag.reg, lastResponse t))
        = some (0x4EDB56C0, 0xFB1E, done 1)
      ∧ (after .authStep nonceIssued).map (fun t => (t.eng, t.wire))
        = some (challengeSent.eng, challengeSent.wire) := by decide +kernel
/-- P1, T3 and T4; V9.10. -/
theorem test_authStep_T3_T4_and_terminal :
    (after .authStep challengeSent).map (fun t => (t.eng, t.wire.at_))
        = some (responseVerified.eng, 0x4EE5211F)
      ∧ (after .authStep responseVerified).map (fun t => (t.eng, t.fsm.state))
        = some (authenticated.eng, .authenticated)
      ∧ reply .authStep authenticated = error .protocolViolation := by decide +kernel
/-- S4.1's write. -/
theorem test_wireWrNt :
    (after (.wireWrNt 0x4EDB56C2) nonceIssued).map (·.wire.nt) = some 0x4EDB56C2 := by decide
/-- V8.7: the window is checked before the width. -/
theorem test_wireWrNt_order :
    (after (.wireWrNt 0x100000000) State.reset).map statusWord = some 0x805 := by decide
/-- S4.3's write. -/
theorem test_wireWrNr :
    (after (.wireWrNr 0x3E6E9642) challengeSent).map (·.wire.nr) = some 0x3E6E9642 := by decide
/-- V9.7. -/
theorem test_wireWrNr_early :
    (after (.wireWrNr 1) nonceIssued).map statusWord = some 0x805 := by decide
/-- S4.5's write. -/
theorem test_wireWrAr :
    (after (.wireWrAr 0xFD9ABC06) challengeSent).map (·.wire.ar) = some 0xFD9ABC06 := by decide
/-- S4.6's write. -/
theorem test_wireWrAt :
    (after (.wireWrAt 0x4EE5211E) responseVerified).map (·.wire.at_) = some 0x4EE5211E := by decide
/-- V9.8. -/
theorem test_wireWrAt_early :
    (after (.wireWrAt 1) challengeSent).map statusWord = some 0x81D := by decide
/-- V9.1. -/
theorem test_rdStatus :
    reply .rdStatus challengeSent = done 0x01A ∧ reply .rdStatus authenticated = done 0x01C := by decide
/-- P1 line 14. -/
theorem test_rdWireNt :
    reply .rdWireNt authenticated = done 0x4EDB56C0 := by decide
/-- P1 line 15. -/
theorem test_rdWireNr :
    reply .rdWireNr authenticated = done 0x3E6E9652 := by decide
/-- P1 line 16. -/
theorem test_rdWireAr :
    reply .rdWireAr authenticated = done 0xFD9ABC07 := by decide
/-- P1 line 17. -/
theorem test_rdWireAt :
    reply .rdWireAt authenticated = done 0x4EE5211F := by decide

/-! ## The step -/

/-- V7.11: an illegal word is answered and leaves the block. -/
theorem test_step_illegal :
    step (sends nonceIssued 0x0100000000000000) = .next (refusedWith nonceIssued .illegalCommand) := rfl
/-- R310: a word that arrives under reset gets no response. -/
theorem test_step_under_reset :
    step ((sends State.reset 0x6000000000000000).withResetInput true)
      = .next (State.reset.withResetInput true) := rfl
/-- The interface's word is the next command (assumption log 3). -/
theorem test_withFetchWord_runs :
    step (State.reset.withFetchWord 64 0x110000A03DB1A8C0)
      = exec (.engLoad .tag 0x00A03DB1A8C0) State.reset := rfl

/-! ## Witnesses: for each statement with hypotheses, states and operands that meet them all, one for
each clause, at the ends of a clause's range where it has one -/

/-- DecodeUndoesEncode. -/
theorem witness_well_formed : (Instr.engClk .reader true true).WellFormed ∧ (Instr.engKs .tag 49).WellFormed := by
  decide
/-- EncodeUndoesDecode. -/
theorem witness_decodes : decode 0x1383000000000000 = .ok (.engClk .reader true true) := rfl
/-- WordsOfARowMatchUnderItsMask. -/
theorem witness_row : ("ENG_CLK", 0x1300000000000000, 0xFF7CFFFFFFFFFFFF) ∈ opcodeMap := by decide
/-- IllegalWordsChangeNothing, its three ways and both ends of an unassigned range. -/
theorem witness_illegal_words :
    unassignedOpcode ((0x0100000000000000 : CmdWord).extractLsb' 56 8).toNat
    ∧ unassignedOpcode ((0xFF00000000000000 : CmdWord).extractLsb' 56 8).toNat
    ∧ (∀ row ∈ opcodeMap, (0x2480000000000001 : CmdWord) &&& row.2.2 ≠ row.2.1)
    ∧ ((0x1301000000000000 : CmdWord).extractLsb' 56 8 = 0x13
      ∧ (0x1301000000000000 : CmdWord).getLsbD 49 = false
      ∧ (0x1301000000000000 : CmdWord).getLsbD 48 = true) := by decide
/-- AnsweredIllegal and Receives: the host sends a word, reset not asserted. -/
theorem witness_sent :
    (sends nonceIssued 0x0100000000000000).host.pending = [.command 0x0100000000000000]
    ∧ (sends nonceIssued 0x0100000000000000).host.resetAsserted = false := by decide
/-- StepRunsTheDecodedCommand. -/
theorem witness_receives : Receives (sends nonceIssued 0x5100000000000000) .authStep :=
  ⟨_, _, rfl, rfl, rfl⟩
/-- StepWithoutACommandHoldsTheBlock. -/
theorem witness_no_command :
    nonceIssued.host.pending = []
    ∧ { nonceIssued.host with pending := [.releaseReset] }.pending = .releaseReset :: [] := by decide
/-- HardwareResetPutsEveryRegisterToItsResetValue: reset, and a word that arrives under it. -/
theorem witness_reset :
    { nonceIssued.host with pending := [.assertReset] }.pending = .assertReset :: []
    ∧ ((sends failed 0).withResetInput true).host.resetAsserted = true
    ∧ ((sends failed 0).withResetInput true).host.pending = .command 0 :: [] := by decide
/-- EveryCommandGivesOneResponse, ErrorsChangeOnlyTheStateMachine: a command that raises an error. -/
theorem witness_error :
    exec (.engMix .reader 1) State.reset = .next (refusedWith State.reset .notPrimed)
    ∧ lastResponse (refusedWith State.reset .notPrimed) = some ⟨.notPrimed, 0⟩
    ∧ ErrCode.notPrimed ≠ .ok := ⟨rfl, rfl, by decide⟩
/-- ErrorsChangeOnlyTheStateMachine: an error in each of the four cases of R283. -/
theorem witness_failure_entries :
    reply .authStep State.reset = error .zeroSeed ∧ reply (.engKs .tag 8) nonceIssued = error .protocolViolation
    ∧ reply (.setTicks .tag 8) State.reset = error .invalidTickCount
    ∧ reply (.wireWrNt 0x100000000) nonceIssued = error .invalidWidth := by decide
/-- FromIntegerAcceptsWhatFits at the ends of both ranges (V1.5, V1.6). -/
theorem witness_from_integer :
    (0xFFFF : Data48).toNat < 2 ^ 16 ∧ 2 ^ 16 ≤ (0x10000 : Data48).toNat := by decide
/-- ShiftInMovesEveryIndexUpByOne, KeystreamBitIsTheFilterOfItsClock, SixteenOutputsAreTheRegister and
EngineClockForgetsExactlyTheOldestBit: the last index of each range. -/
theorem witness_indices : 46 < 47 ∧ 47 < 48 ∧ 15 < 16 := by decide
/-- FilterReadsOnlyTheOddIndicesFromNine: two registers that agree where `F` reads and differ
elsewhere; and two that agree where the next clock's filter reads. -/
theorem witness_filter_inputs :
    (∀ i, i < 48 → 9 ≤ i → i % 2 = 1 → idx (0xAAAAAAAAAAAA : Reg48) i = idx (0 : Reg48) i)
    ∧ (∀ i, i < 47 → 8 ≤ i → i % 2 = 0 → idx (0x555555555555 : Reg48) i = idx (0 : Reg48) i) := by
  decide
/-- PrngCycleHasPeriod65535, SecondNonceHalfIsSixteenClocksOfTheFirst: the largest tick count, the
least that is refused, and a seed of each kind. -/
theorem witness_nonce :
    (0x104A : Reg16) ≠ 0 ∧ (65520 : BitVec 16).toNat % 16 = 0 ∧ (8 : BitVec 16).toNat % 16 ≠ 0
    ∧ (0 : BitVec 16).toNat % 16 = 0 := by decide
/-- NonZeroPrngStaysNonZero. -/
theorem witness_nonzero_prng :
    (sends nonceIssued 0x5000000000000000).host.pending.head? ≠ some .assertReset
    ∧ ((sends nonceIssued 0x5000000000000000).prng.get .tag).reg ≠ 0
    ∧ step (sends nonceIssued 0x5000000000000000)
      = exec .sessionNew nonceIssued := ⟨by decide, by decide, rfl⟩
/-- The clauses `Outside`, `InHandshake`, `Terminal` and `Idle` of the command statements, each in every
state it names. -/
theorem witness_states :
    Outside idle ∧ Outside authenticated ∧ Outside failed ∧ InHandshake nonceIssued
    ∧ InHandshake challengeSent ∧ InHandshake responseVerified ∧ Terminal authenticated
    ∧ Terminal failed ∧ ¬ Terminal idle ∧ ¬ Terminal responseVerified := by decide
/-- PrngSeedLoadsTheRegister: the last seed that fits, the first that does not, and 0. -/
theorem witness_prngSeed :
    Outside failed ∧ (0xFFFF : Data48).toNat < 2 ^ 16 ∧ (0xFFFF : Data48) ≠ 0
    ∧ 2 ^ 16 ≤ (0x10000 : Data48).toNat := by decide
/-- PrngClkClocksOnce. -/
theorem witness_prngClk :
    Outside (seeded 1) ∧ ((seeded 1).prng.get .reader).reg ≠ 0
    ∧ (State.reset.prng.get .reader).reg = 0 := by decide
/-- PrngNonceReturnsTheNonceAndLeavesItsTerminalState: `seed = 0xFFFF, ticks = 65520`; a word too
wide; `seed = 0, ticks = 8`; `seed = 0, ticks = 16`. -/
theorem witness_prngNonce :
    (0xFFF0FFFF : Data48).toNat < 2 ^ 32
    ∧ ((0xFFF0FFFF : Data48).extractLsb' 16 16).toNat % 16 = 0
    ∧ (0xFFF0FFFF : Data48).extractLsb' 0 16 ≠ 0 ∧ 2 ^ 32 ≤ (0x100000000 : Data48).toNat
    ∧ ((0x00080000 : Data48).extractLsb' 16 16).toNat % 16 ≠ 0
    ∧ ((0x00100000 : Data48).extractLsb' 16 16).toNat % 16 = 0
    ∧ (0x00100000 : Data48).extractLsb' 0 16 = 0 := by decide
/-- SucCommandShiftsTheNonce, the 32-bit clauses of SetCommandsWriteTheirRegister and
WireCommandsReplaceTheValueInFlight, at the ends of their ranges. -/
theorem witness_data32 :
    (0xFFFFFFFF : Data48).toNat < 2 ^ 32 ∧ 2 ^ 32 ≤ (0x100000000 : Data48).toNat := by decide
/-- EngLoadPrimesAnUnprimedEngine, EngMixXorsIntoAPrimedEngine, EngClkClocksAPrimedEngine. -/
theorem witness_engines :
    Outside State.reset ∧ (State.reset.eng.get .tag).primed = false
    ∧ Outside (loaded 5) ∧ ((loaded 5).eng.get .reader).primed = true := by decide
/-- `Encodes`: for a row, a word that matches and one of the same `OP` that does not; EngClk's three
kinds of words. -/
theorem witness_encodes :
    (0x1180000000000005 : CmdWord) &&& 0xFF7F000000000000 = 0x1100000000000000
    ∧ (0x1104000000000005 : CmdWord) &&& 0xFF7F000000000000 ≠ 0x1100000000000000
    ∧ (0x1104000000000005 : CmdWord).extractLsb' 56 8
      = (0x1100000000000000 : CmdWord).extractLsb' 56 8
    ∧ (0x1382000000000000 : CmdWord) &&& 0xFF7CFFFFFFFFFFFF = 0x1300000000000000
    ∧ (0x1301000000000000 : CmdWord) &&& 0xFF7CFFFFFFFFFFFF = 0x1300000000000000
    ∧ (0x1300000000000001 : CmdWord) &&& 0xFF7CFFFFFFFFFFFF ≠ 0x1300000000000000 := by decide
/-- EngKsExtractsKeystream: the largest count and the first refused. -/
theorem witness_engKs :
    (48 : Data48).toNat ≤ 48 ∧ 48 < (49 : Data48).toNat ∧ Outside (loaded 5)
    ∧ ((loaded 5).eng.get .tag).primed = true := by decide
/-- RestoredSnapshotReplaysItsKeystream. -/
theorem witness_snapshot :
    Outside (loaded 5) ∧ ((loaded 5).eng.get .reader).primed = true ∧ (48 : Data48).toNat ≤ 48
    ∧ exec (.engRdstate .reader) (loaded 5) = .next (readsAs (loaded 5) 5)
    ∧ lastResponse (readsAs (loaded 5) 5) = some ⟨.ok, 5⟩
    ∧ ∃ t, exec (.engKs .reader 48) (readsAs (loaded 5) 5) = .next t :=
  ⟨by decide, by decide, by decide, rfl, rfl, _, rfl⟩
/-- SynchronizedEnginesStaySynchronized. -/
theorem witness_synchronized :
    (∀ f ∈ [(.engMix · 0x16801), (.engClk · true true), Instr.engReset], isEngineCommand f)
    ∧ Outside (loaded 5) ∧ (loaded 5).eng.tag = (loaded 5).eng.reader := by
  refine ⟨?_, by decide, rfl⟩
  intro f hf
  simp only [List.mem_cons, List.not_mem_nil, or_false] at hf
  rcases hf with rfl | rfl | rfl
  · exact .inr (.inr (.inl ⟨_, rfl⟩))
  · exact .inr (.inr (.inr (.inl ⟨_, _, rfl⟩)))
  · exact .inl rfl
/-- SetCommandsWriteTheirRegister: the 16-bit clauses, at the ends of their ranges. -/
theorem witness_data16 :
    (0xFFFF : Data48).toNat < 2 ^ 16 ∧ 2 ^ 16 ≤ (0x10000 : Data48).toNat
    ∧ idle.fsm.state = .idle := by decide
/-- SetTicksAcceptsMultiplesOfSixteen: R226's own `t = 0`, `t = 65520`, `t = 8`, `t = 65535`. -/
theorem witness_ticks :
    (0 : Data48).toNat % 16 = 0 ∧ (65520 : Data48).toNat < 2 ^ 16 ∧ (65520 : Data48).toNat % 16 = 0
    ∧ (8 : Data48).toNat % 16 ≠ 0 ∧ (65535 : Data48).toNat < 2 ^ 16
    ∧ (65535 : Data48).toNat % 16 ≠ 0 := by decide
/-- AuthStepFromIdleIssuesTheTagNonce: it runs; a seed of 0; a tick count no command stores. -/
theorem witness_T1 :
    idle.fsm.state = .idle ∧ idle.cfg.ticks.tag.toNat % 16 = 0 ∧ idle.cfg.seed.tag ≠ 0
    ∧ State.reset.cfg.ticks.tag.toNat % 16 = 0 ∧ State.reset.cfg.seed.tag = 0
    ∧ ({ idle.cfg with ticks := ⟨8, 0⟩ }).ticks.tag.toNat % 16 ≠ 0 := by decide
/-- AuthStepFromNonceIssuedSendsTheChallenge: it runs; an engine primed before T2; a reader's seed
of 0 (V8.10); a tick count no command stores. -/
theorem witness_T2 :
    nonceIssued.fsm.state = .nonceIssued ∧ nonceIssued.eng.tag.primed = false
    ∧ nonceIssued.eng.reader.primed = false ∧ nonceIssued.cfg.ticks.reader.toNat % 16 = 0
    ∧ nonceIssued.cfg.seed.reader ≠ 0
    ∧ { nonceIssued with eng := (loaded 5).eng }.eng.reader.primed = true
    ∧ { nonceIssued.cfg with seed := ⟨0x104A, 0⟩ }.seed.reader = 0
    ∧ { nonceIssued.cfg with ticks := ⟨160, 8⟩ }.ticks.reader.toNat % 16 ≠ 0 := by decide
/-- AuthStepFromChallengeSentChecksTheReader: the response matches; it does not (S4.5); the tag engine
is unprimed, which no run reaches. -/
theorem witness_T3 :
    challengeSent.fsm.state = .challengeSent ∧ challengeSent.eng.tag.primed = true
    ∧ (let k1 := keystream challengeSent.eng.tag.reg 32
       let nr := challengeSent.wire.nr ^^^ k1.2.setWidth 32
       let k2 := keystream (k1.1 ^^^ nr.setWidth 48) 32
       0xFD9ABC07 ^^^ k2.2.setWidth 32 = sucNonce challengeSent.lat.tagNt
       ∧ 0xFD9ABC06 ^^^ k2.2.setWidth 32 ≠ sucNonce challengeSent.lat.tagNt)
    ∧ { challengeSent with eng := State.reset.eng }.eng.tag.primed = false := by decide +kernel
/-- AuthStepFromResponseVerifiedChecksTheTag: the responses match and the engines are equal, or not;
the responses differ (S4.6). -/
theorem witness_T4 :
    responseVerified.fsm.state = .responseVerified
    ∧ (let k3 := keystream responseVerified.eng.reader.reg 32
       0x4EE5211F ^^^ k3.2.setWidth 32 = sucNonce (sucNonce responseVerified.lat.rdrNt)
       ∧ responseVerified.eng.tag.reg = k3.1 ∧ (0 : Reg48) ≠ k3.1
       ∧ 0x4EE5211E ^^^ k3.2.setWidth 32 ≠ sucNonce (sucNonce responseVerified.lat.rdrNt)) := by
  decide +kernel
/-- StateMachineMovesAlongItsEdges: a step that moves it. -/
theorem witness_edge :
    ∃ t, step (sends State.reset 0x4380000000000008) = .next t ∧ t.fsm.state ≠ .idle :=
  ⟨failsWith State.reset .invalidTickCount, rfl, by decide⟩
/-- SessionNewStartsAFreshSession, its last clause. -/
theorem witness_terminal_command :
    Terminal failed ∧ exec .nop failed = .next (readsAs failed 0) ∧ Instr.nop ≠ .sessionNew :=
  ⟨by decide, rfl, by decide⟩
/-- HandshakeOwnsEnginesPrngsAndConfig. -/
theorem witness_handshake_command :
    InHandshake nonceIssued ∧ Instr.engKs .tag 8 ≠ .authStep ∧ Instr.engKs .tag 8 ≠ .sessionNew
    ∧ exec (.engKs .tag 8) nonceIssued = .next (failsWith nonceIssued .protocolViolation) :=
  ⟨by decide, by decide, by decide, rfl⟩
/-- EndpointsOwnTheirEngineAndPrng: a command of each endpoint, and transitions of one endpoint. -/
theorem witness_endpoints :
    (after (.engReset .tag) (loaded 5)).isSome ∧ (after (.prngClk .reader) (seeded 1)).isSome
    ∧ (after .authStep State.reset).isSome ∧ responseVerified.fsm.state = .responseVerified := by decide
/-- NoAnswerReadsTheKey. -/
theorem witness_key :
    exec (.setUid 1) idle
      = .next { idle with cfg := { idle.cfg with uid := 1 }, host := answered idle.host .ok 0 } := rfl
/-- EveryStepKeepsTheBlockSound: a state of a run, in handshake, in which the invariant holds. -/
theorem witness_sound : Sound challengeSent := by
  constructor <;> decide
/-- HonestHandshakeConverges, ChangedResponsesFailAuthentication: the session of S1. -/
theorem witness_honest : Ready idle ∧ idle.cfg.key.tag = idle.cfg.key.reader := by
  refine ⟨?_, rfl⟩
  constructor <;> decide
/-- ChangedResponsesFailAuthentication: changed responses (S4.5, S4.6). -/
theorem witness_changed :
    (0xFD9ABC06 : Nonce32) ≠ challengeSent.wire.ar ∧ (0x4EE5211E : Nonce32) ≠ responseVerified.wire.at_ := by
  decide
/-- BitZeroOfKeyAndNtGoesUndetected: keys that differ in bit 0 (S2, `b = 0`), and `wire.nt` with bit 0
changed (S4.2). -/
theorem witness_bit_zero :
    (0x00A0B1C2D3F4 : Reg48) = (0x00A0B1C2D3F5 : Reg48) ^^^ 1
    ∧ (0x4EDB56C1 : Nonce32) = nonceIssued.wire.nt ^^^ 1 := by decide
/-- OtherCommandsAreIdempotentOutsideAHandshake: a configuration command that fails in `Idle`. -/
theorem witness_idempotent :
    Outside State.reset
    ∧ exec (.setTicks .tag 8) State.reset = .next (failsWith State.reset .invalidTickCount)
    ∧ (∀ ep x, Instr.setTicks .tag 8 ≠ .engLoad ep x) ∧ (∀ ep, Instr.setTicks .tag 8 ≠ .prngClk ep) := by
  refine ⟨by decide, rfl, ?_, ?_⟩ <;> intros <;> simp

end Sys2Proof.Tests
end

section
/-! What an error leaves, and what each transition leaves where it returns (44_auth_fsm.md rules R229 to
R232, 60_exceptions.md rule R282). -/

namespace Sys2Proof.Machine

open Sys2Proof Safety

namespace State

variable (s : State) (c : CommandClass) (e : ErrCode)

@[simp] theorem raiseError_eng : (s.raiseError c e).eng = s.eng := by
  unfold raiseError; split <;> rfl

@[simp] theorem raiseError_prng : (s.raiseError c e).prng = s.prng := by
  unfold raiseError; split <;> rfl

@[simp] theorem raiseError_host :
    (s.raiseError c e).host = { s.host with responses := s.host.responses ++ [⟨e, 0⟩] } := by
  unfold raiseError; split <;> rfl

end State

/-- A transition that returns is the one of the state it starts in (R220). -/
theorem transition_cases {s t : State} (h : transition s = .ok t) :
    (s.fsm.state = .idle ∧ transitionT1 s = .ok t)
    ∨ (s.fsm.state = .nonceIssued ∧ transitionT2 s = .ok t)
    ∨ (s.fsm.state = .challengeSent ∧ transitionT3 s = .ok t)
    ∨ (s.fsm.state = .responseVerified ∧ transitionT4 s = .ok t) := by
  cases hs : s.fsm.state <;> simp_all [transition]

/-- `load` returns the loaded engine, primed, where the engine was not (R194). -/
theorem load_eq_ok {e e' : Engine} {x : Reg48} :
    e.load x = .ok e' ↔ e.primed = false ∧ e' = ⟨x, true⟩ := by
  cases hp : e.primed <;> simp [Engine.load, hp, @eq_comm _ e']

/-- `mix_in` returns where the engine is primed, and keeps it so (R195). -/
theorem mixIn_eq_ok {e e' : Engine} {x : Reg48} :
    e.mixIn x = .ok e' ↔ e.primed = true ∧ e' = e.withReg (e.reg ^^^ x) := by
  cases hp : e.primed <;> simp [Engine.mixIn, Engine.withReg, hp, @eq_comm _ e']

@[simp] theorem withReg_primed (e : Engine) (v : Reg48) : (e.withReg v).primed = e.primed := rfl

/-- What T1 writes (R229). -/
theorem transitionT1_writes {s t : State} (h : transitionT1 s = .ok t) :
    ∃ nt term, t = { s with
      prng := { s.prng with tag := term }
      lat := { s.lat with tagNt := nt }
      wire := { s.wire with nt := nt }
      fsm := { s.fsm with state := .nonceIssued } } := by
  simp only [transitionT1, except_bind_eq_ok, except_pure, Except.ok.injEq] at h
  obtain ⟨_, _, rfl⟩ := h
  exact ⟨_, _, rfl⟩

/-- What T2 writes (R230): two unprimed engines are primed. -/
theorem transitionT2_writes {s t : State} (h : transitionT2 s = .ok t) :
    ∃ v nr term nrWire ar, t = { s with
      eng := ⟨⟨loadValue s .tag s.lat.tagNt, true⟩, ⟨v, true⟩⟩
      prng := { s.prng with reader := term }
      lat := { s.lat with rdrNt := s.wire.nt, rdrNr := nr }
      wire := { s.wire with nr := nrWire, ar := ar }
      fsm := { s.fsm with state := .challengeSent } } := by
  simp only [transitionT2, except_bind_eq_ok, except_pure, Except.ok.injEq, load_eq_ok,
    mixIn_eq_ok] at h
  obtain ⟨_, ⟨_, rfl⟩, _, ⟨_, rfl⟩, _, _, _, ⟨_, rfl⟩, rfl⟩ := h
  exact ⟨_, _, _, _, _, rfl⟩

/-- What T3 writes (R231): the tag engine stays primed. -/
theorem transitionT3_writes {s t : State} (h : transitionT3 s = .ok t) :
    ∃ v nr tagResponse, t = { s with
      eng := { s.eng with tag := s.eng.tag.withReg v }
      lat := { s.lat with tagNr := nr }
      wire := { s.wire with at_ := tagResponse }
      fsm := { s.fsm with state := .responseVerified } } := by
  simp only [transitionT3, except_bind_eq_ok, except_pure, Except.ok.injEq, mixIn_eq_ok] at h
  obtain ⟨_, ⟨_, rfl⟩, _, _, rfl⟩ := h
  exact ⟨_, _, _, rfl⟩

/-- What T4 writes (R232). -/
theorem transitionT4_writes {s t : State} (h : transitionT4 s = .ok t) :
    ∃ v, t = { s with
      eng := { s.eng with reader := s.eng.reader.withReg v }
      fsm := { s.fsm with state := .authenticated } } := by
  simp only [transitionT4, except_bind_eq_ok, except_pure, Except.ok.injEq] at h
  obtain ⟨_, _, _, _, rfl⟩ := h
  exact ⟨_, rfl⟩

/-- AUTH_STEP returns where its transition does (R228). -/
theorem authStepBody_eq_ok {s t : State} {d : Data48} :
    authStepBody s = .ok (t, d) ↔ transition s = .ok t ∧ d = t.fsm.state.data := by
  simp only [authStepBody, except_bind_eq_ok, except_pure, Except.ok.injEq, Prod.mk.injEq]
  constructor
  · rintro ⟨_, h, rfl, rfl⟩
    exact ⟨h, rfl⟩
  · rintro ⟨h, rfl⟩
    exact ⟨t, h, rfl, rfl⟩

end Sys2Proof.Machine
end

section
/-! The invariant of the block (10_state.md rules R27 and R31): kept by every change a command, an error
or the host can make, hence by every step. -/

namespace Sys2Proof.Machine

open Sys2Proof Safety

/-- The tick counts are multiples of 16 (R27). -/
def TicksAligned (cfg : SessionConfig) : Prop :=
  cfg.ticks.tag.toNat % 16 = 0 ∧ cfg.ticks.reader.toNat % 16 = 0

/-- The invariant speaks of the block, not of the host's side (R20). -/
theorem sound_of_sameBlock {s t : State} (h : Sound s) (hb : SameBlock t s) : Sound t := by
  obtain ⟨heng, -, hcfg, hwire, hlat, hfsm⟩ := hb
  obtain ⟨hticks, hok, hcode, h1, h2, h3, hprimed⟩ := h
  constructor <;> simpa only [heng, hcfg, hwire, hlat, hfsm]

theorem sound_respond {s : State} (h : Sound s) (e : ErrCode) (d : Data48) :
    Sound (s.respond e d) :=
  sound_of_sameBlock h ⟨rfl, rfl, rfl, rfl, rfl, rfl⟩

/-- The reset state has the invariant (R311). -/
theorem sound_reset : Sound State.reset := by
  constructor <;> decide

/-- A fresh session has the invariant (R227). -/
theorem sound_freshSession {s : State} (h : Sound s) : Sound s.freshSession where
  ticks := h.ticks
  fail_ok := by simp
  fail_code := by simp
  before_t1 _ := ⟨rfl, rfl⟩
  before_t2 := by simp
  before_t3 := by simp
  primed := by simp

/-- The error of a failure entry is a code `fsm.fail` may hold (R31, R283). Direct commands raise
`IllegalCommand` and `NotPrimed` where no entry happens, and T3 raises `NotPrimed` only where the
invariant fails: the tag engine is primed there. -/
theorem raised_code_of_entersFailed {i : Instr} {s : State} {e : ErrCode} (h : Sound s)
    (hr : Raises i s e) (hf : entersFailed (classOf i) s.fsm.state e = true) :
    e ≠ .ok ∧ e ≠ .illegalCommand ∧ e ≠ .notPrimed := by
  unfold Raises at hr
  cases hc : classOf i <;> simp only [hc] at hr hf
  case pure => simp [entersFailed] at hf
  case direct =>
    obtain ⟨-, rfl⟩ : s.fsm.state.inHandshake = true ∧ e = .protocolViolation := by
      simpa [entersFailed] using hf
    simp
  case config => rcases hr with ⟨-, rfl⟩ | ⟨-, rfl | rfl⟩ <;> simp
  case wire => rcases hr with rfl | ⟨-, rfl⟩ <;> simp
  case step =>
    rcases transition_error hr with
      ⟨rfl, -⟩ | ⟨-, rfl | rfl | rfl | rfl | rfl | ⟨rfl, hstate, hunprimed⟩⟩
    case inr.inr.inr.inr.inr.inr =>
      have hprimed := (h.primed (.inl hstate)).1
      simp [hunprimed] at hprimed
    all_goals simp

/-- A failure entry with such a code keeps the invariant: it writes `fsm` only, and `Failed` makes no
claim on the engines, wires and latches (R283). -/
theorem sound_enterFailed {s : State} {e : ErrCode} (h : Sound s)
    (he : e ≠ .ok ∧ e ≠ .illegalCommand ∧ e ≠ .notPrimed) : Sound (s.enterFailed e) where
  ticks := h.ticks
  fail_ok := by simp [he.1]
  fail_code := he.2
  before_t1 := by simp
  before_t2 := by simp
  before_t3 := by simp
  primed := by simp

/-- Taking an error keeps the invariant (R282, R283). -/
theorem sound_raiseError {i : Instr} {s : State} {e : ErrCode} (h : Sound s) (hr : Raises i s e) :
    Sound (s.raiseError (classOf i) e) := by
  cases hf : entersFailed (classOf i) s.fsm.state e
  · rw [raiseError_of_not_enters hf]
    exact sound_respond h _ _
  · rw [raiseError_of_enters hf]
    exact sound_respond (sound_enterFailed h (raised_code_of_entersFailed h hr hf)) _ _

/-- Outside a handshake the engines and PRNGs are free (R221). -/
theorem sound_setDatapath {s : State} (h : Sound s) (ho : s.fsm.state.inHandshake = false)
    (eng : PerEndpoint Engine) (prng : PerEndpoint Prng) :
    Sound { s with eng := eng, prng := prng } :=
  { h with
    primed hs := by simp [(inHandshake_iff (s := s)).1 (.inr hs)] at ho }

/-- A configuration is free but for its tick counts (R27). -/
theorem sound_setCfg {s : State} (h : Sound s) {cfg : SessionConfig} (hc : TicksAligned cfg) :
    Sound { s with cfg := cfg } :=
  { h with ticks := hc }

/-- A wire may be written in its window (R240): the invariant asks for its 0 only before that. -/
theorem sound_writeWire {s : State} (h : Sound s) {x : WireName} (hx : s.fsm.state = x.window)
    (v : Nonce32) : Sound { s with wire := s.wire.write x v } :=
  { h with
    before_t1 := by cases x <;> simp [hx, WireName.window]
    before_t2 hs := by
      have hw : x.window = .nonceIssued := hx.symm.trans hs
      cases x <;> simp only [WireName.window, reduceCtorEq] at hw
      exact h.before_t2 hx
    before_t3 hs := by
      have hw : x.window = .nonceIssued ∨ x.window = .challengeSent :=
        hs.imp hx.symm.trans hx.symm.trans
      cases x
      case nt => exact h.before_t3 (.inl hx)
      case nr => exact h.before_t3 (.inr hx)
      case ar => exact h.before_t3 (.inr hx)
      case at_ => simp [WireName.window] at hw }

/-- A multiple of 16 may be stored for an endpoint (R27). -/
theorem ticksAligned_set {cfg : SessionConfig} (h : TicksAligned cfg) (ep : Endpoint)
    {t : BitVec 16} (ht : t.toNat % 16 = 0) :
    TicksAligned { cfg with ticks := cfg.ticks.set ep t } := by
  cases ep
  · exact ⟨ht, h.2⟩
  · exact ⟨h.1, ht⟩

/-- A configuration command stores no tick count but a multiple of 16 (R226). -/
theorem ticksAligned_of_config {i : Instr} {s t : State} {d : Data48} (hc : classOf i = .config)
    (h : TicksAligned s.cfg) (hb : commandBody i s = .ok (t, d)) : TicksAligned t.cfg := by
  cases i <;> simp only [classOf, reduceCtorEq] at hc <;>
    simp only [commandBody, setUidBody, setKeyBody, setSeedBody, setTicksBody, except_bind_eq_ok,
      except_pure, Except.ok.injEq, Prod.mk.injEq, gate_eq_ok, require_eq_ok, beq_iff_eq,
      exists_const] at hb
  case setUid => obtain ⟨_, _, _, rfl, _⟩ := hb; exact h
  case setKey => obtain ⟨_, rfl, _⟩ := hb; exact h
  case setSeed => obtain ⟨_, _, _, rfl, _⟩ := hb; exact h
  case setTicks => obtain ⟨_, _, _, ht, rfl, _⟩ := hb; exact ticksAligned_set h _ ht

/-- A wire command that returns is in its window, and writes its wire (R241 to R244). -/
theorem wireWrBody_writes {x : WireName} {data d : Data48} {s t : State}
    (h : wireWrBody x data s = .ok (t, d)) :
    s.fsm.state = x.window ∧ ∃ v, t = { s with wire := s.wire.write x v } := by
  simp only [wireWrBody, except_bind_eq_ok, except_pure, Except.ok.injEq, Prod.mk.injEq,
    require_eq_ok, beq_iff_eq, exists_const] at h
  obtain ⟨hx, v, _, rfl, _⟩ := h
  exact ⟨hx, v, rfl⟩

/-- Every command of the wire class writes one wire, in its window. -/
theorem writes_of_wire {i : Instr} {s t : State} {d : Data48} (hc : classOf i = .wire)
    (hb : commandBody i s = .ok (t, d)) :
    ∃ x : WireName, s.fsm.state = x.window ∧ ∃ v, t = { s with wire := s.wire.write x v } := by
  cases i <;> simp only [classOf, reduceCtorEq] at hc <;>
    exact ⟨_, wireWrBody_writes hb⟩

/-- Every transition keeps the invariant (R229 to R232): it writes what its state leaves at 0, and T2
primes the engines that the two states after it need. -/
theorem sound_transition {s t : State} (h : Sound s) (ht : transition s = .ok t) : Sound t := by
  have hok : s.fsm.state ≠ .failed → s.fsm.fail = .ok := h.fail_ok.2
  rcases transition_cases ht with ⟨hs, hT⟩ | ⟨hs, hT⟩ | ⟨hs, hT⟩ | ⟨hs, hT⟩ <;>
    simp only [hs, ne_eq, reduceCtorEq, not_false_eq_true, forall_const] at hok
  · obtain ⟨nt, term, rfl⟩ := transitionT1_writes hT
    obtain ⟨hwire, hlat⟩ := h.before_t1 hs
    exact { h with
      fail_ok := by simp [hok]
      before_t1 := by simp
      before_t2 _ := by simp [hwire, hlat]
      before_t3 _ := by simp [hwire, hlat]
      primed := by simp }
  · obtain ⟨v, nr, term, nrWire, ar, rfl⟩ := transitionT2_writes hT
    exact { h with
      fail_ok := by simp [hok]
      before_t1 := by simp
      before_t2 := by simp
      before_t3 _ := h.before_t3 (.inl hs)
      primed _ := ⟨rfl, rfl⟩ }
  · obtain ⟨v, nr, tagResponse, rfl⟩ := transitionT3_writes hT
    exact { h with
      fail_ok := by simp [hok]
      before_t1 := by simp
      before_t2 := by simp
      before_t3 := by simp
      primed _ := h.primed (.inl hs) }
  · obtain ⟨v, rfl⟩ := transitionT4_writes hT
    exact { h with
      fail_ok := by simp [hok]
      before_t1 := by simp
      before_t2 := by simp
      before_t3 := by simp
      primed := by simp }

/-- Every command keeps the invariant where its pseudocode returns. -/
theorem sound_of_body {i : Instr} {s t : State} {d : Data48} (h : Sound s)
    (hb : commandBody i s = .ok (t, d)) : Sound t := by
  have he := effect_of_body hb
  unfold Effect at he
  cases hc : classOf i <;> simp only [hc] at he
  case pure => exact he ▸ h
  case direct => rw [he.2]; exact sound_setDatapath h he.1 _ _
  case config => rw [he.2]; exact sound_setCfg h (ticksAligned_of_config hc h.ticks hb)
  case new => rw [he]; exact sound_freshSession h
  case step => exact sound_transition h he
  case wire =>
    obtain ⟨x, hx, v, rfl⟩ := writes_of_wire hc hb
    exact sound_writeWire h hx v

/-- Every command keeps the invariant. -/
theorem sound_exec {i : Instr} {s t : State} (h : Sound s) (hx : exec i s = .next t) : Sound t := by
  rcases exec_cases hx with ⟨u, d, hb, rfl⟩ | ⟨e, hb, rfl⟩
  · exact sound_respond (sound_of_body h hb) _ _
  · exact sound_raiseError h (raises_of_body hb)

/-- Settles O54: each thing a step can do keeps the invariant, a command by `sound_exec`. -/
theorem everyStepKeepsTheBlockSound : Obligations.EveryStepKeepsTheBlockSound := by
  intro s t h hstep
  have htake : Sound s.takeEvent := sound_of_sameBlock h ⟨rfl, rfl, rfl, rfl, rfl, rfl⟩
  rcases step_cases hstep with
    ⟨-, rfl⟩ | ⟨-, rfl⟩ | ⟨-, rfl⟩ | ⟨-, rfl⟩ | rfl | ⟨i, -, hx⟩
  · exact h
  · exact sound_of_sameBlock sound_reset ⟨rfl, rfl, rfl, rfl, rfl, rfl⟩
  · exact sound_of_sameBlock htake ⟨rfl, rfl, rfl, rfl, rfl, rfl⟩
  · exact htake
  · exact sound_respond htake _ _
  · exact sound_exec htake hx

end Sys2Proof.Machine
end

section
/-! Each endpoint owns its engine and its PRNG (10_state.md rule R36). -/

namespace Sys2Proof.Machine

open Sys2Proof Safety

/-- The direct commands of an endpoint (R221). -/
def DirectOf (ep : Endpoint) (i : Instr) : Prop :=
  i = .engReset ep ∨ (∃ x, i = .engLoad ep x) ∨ (∃ x, i = .engMix ep x)
    ∨ (∃ iv ib, i = .engClk ep iv ib) ∨ (∃ n, i = .engKs ep n)
    ∨ (∃ d, i = .prngSeed ep d) ∨ i = .prngClk ep ∨ (∃ d, i = .prngNonce ep d)

/-- A direct command writes the engine or the PRNG of its endpoint (R170 to R172, R199 to R203). -/
theorem writes_of_direct {ep : Endpoint} {i : Instr} {s t : State} {d : Data48}
    (hi : DirectOf ep i) (hb : commandBody i s = .ok (t, d)) :
    (∃ e, t = s.setEng ep e) ∨ ∃ v, t = s.setPrng ep v := by
  rcases hi with rfl | ⟨_, rfl⟩ | ⟨_, rfl⟩ | ⟨_, _, rfl⟩ | ⟨_, rfl⟩ | ⟨_, rfl⟩ | rfl | ⟨_, rfl⟩ <;>
    simp only [commandBody, engResetBody, engLoadBody, engMixBody, engClkBody, engKsBody,
      prngSeedBody, prngClkBody, prngNonceBody, except_bind_eq_ok, except_pure, Except.ok.injEq,
      Prod.mk.injEq, gate_eq_ok, require_eq_ok, exists_const] at hb
  · obtain ⟨_, rfl, _⟩ := hb; exact .inl ⟨_, rfl⟩
  · obtain ⟨_, _, _, rfl, _⟩ := hb; exact .inl ⟨_, rfl⟩
  · obtain ⟨_, _, _, rfl, _⟩ := hb; exact .inl ⟨_, rfl⟩
  · obtain ⟨_, _, _, _, rfl, _⟩ := hb; exact .inl ⟨_, rfl⟩
  · obtain ⟨_, _, _, _, rfl, _⟩ := hb; exact .inl ⟨_, rfl⟩
  · obtain ⟨_, _, _, _, rfl, _⟩ := hb; exact .inr ⟨_, rfl⟩
  · obtain ⟨_, _, rfl, _⟩ := hb; exact .inr ⟨_, rfl⟩
  · obtain ⟨_, _, _, _, _, rfl, _⟩ := hb; exact .inr ⟨_, rfl⟩

/-- A direct command of one endpoint leaves the other's engine and PRNG. -/
theorem exec_direct_keeps_other {ep other : Endpoint} {i : Instr} {s t : State}
    (hi : DirectOf ep i) (hne : other ≠ ep) (hx : exec i s = .next t) :
    t.eng.get other = s.eng.get other ∧ t.prng.get other = s.prng.get other := by
  rcases exec_cases hx with ⟨u, d, hb, rfl⟩ | ⟨e, -, rfl⟩
  · rcases writes_of_direct hi hb with ⟨e, rfl⟩ | ⟨v, rfl⟩ <;>
      simp [PerEndpoint.get_set_of_ne _ _ hne]
  · simp

/-- A transition is a step of one endpoint but for T2 (R229, R231, R232). -/
theorem transition_keeps_other {s t : State} (h : transition s = .ok t) :
    (s.fsm.state = .idle ∨ s.fsm.state = .challengeSent →
      t.eng.reader = s.eng.reader ∧ t.prng.reader = s.prng.reader)
    ∧ (s.fsm.state = .responseVerified → t.eng.tag = s.eng.tag ∧ t.prng = s.prng) := by
  rcases transition_cases h with ⟨hs, hT⟩ | ⟨hs, -⟩ | ⟨hs, hT⟩ | ⟨hs, hT⟩
  · obtain ⟨nt, term, rfl⟩ := transitionT1_writes hT
    simp [hs]
  · simp [hs]
  · obtain ⟨v, nr, tagResponse, rfl⟩ := transitionT3_writes hT
    simp [hs]
  · obtain ⟨v, rfl⟩ := transitionT4_writes hT
    simp [hs]

/-- Settles O52: a direct command writes its own endpoint's values only, and so do T1, T3 and T4. -/
theorem endpointsOwnTheirEngineAndPrng : Obligations.EndpointsOwnTheirEngineAndPrng := by
  refine ⟨fun _ _ _ => ⟨rfl, rfl, rfl, rfl⟩, fun s t => ⟨fun i hi hx => ?_, fun i hi hx => ?_,
    fun hx => ?_⟩⟩
  · exact exec_direct_keeps_other (ep := .tag) (other := .reader) hi (by decide) hx
  · exact exec_direct_keeps_other (ep := .reader) (other := .tag) hi (by decide) hx
  · rcases exec_cases hx with ⟨u, d, hb, rfl⟩ | ⟨e, -, rfl⟩
    · have hkeep := transition_keeps_other (authStepBody_eq_ok.1 hb).1
      exact hkeep
    · simp

end Sys2Proof.Machine
end

section
/-! No answer reads the keys (10_state.md rule R25, 60_exceptions.md rule R290): every command but
AUTH_STEP carries a change of the keys along unread, and AUTH_STEP loads them into engines whose
registers decide no answer of the same step. -/

namespace Sys2Proof.Machine

open Sys2Proof Safety

/-- The state with other keys. -/
def State.withKeys (s : State) (key : PerEndpoint Reg48) : State :=
  { s with cfg := { s.cfg with key := key } }

/-- Taking an error reads no key. -/
theorem raiseError_withKeys (s : State) (key : PerEndpoint Reg48) (c : CommandClass) (e : ErrCode) :
    (s.withKeys key).raiseError c e = (s.raiseError c e).withKeys key := by
  cases hf : entersFailed c s.fsm.state e
  · rw [raiseError_of_not_enters hf, raiseError_of_not_enters (s := s.withKeys key) hf]
    rfl
  · rw [raiseError_of_enters hf, raiseError_of_enters (s := s.withKeys key) hf]
    rfl

/-- The result with other keys in the state it leaves. -/
def Result.withKeys (key : PerEndpoint Reg48) (r : Result) : Result :=
  (fun p => (p.1.withKeys key, p.2)) <$> r

/-- A command other than AUTH_STEP computes the same from other keys, and leaves them as they are or, as
SET_KEY does, with its operand written. -/
theorem commandBody_withKeys {i : Instr} (hi : i ≠ .authStep) (s : State)
    (key : PerEndpoint Reg48) :
    ∃ key', commandBody i (s.withKeys key) = Result.withKeys key' (commandBody i s) := by
  cases i
  case authStep => exact absurd rfl hi
  case setKey ep k =>
    refine ⟨key.set ep k, ?_⟩
    simp only [commandBody, setKeyBody, Result.withKeys, map_bind]
    rfl
  all_goals
    refine ⟨key, ?_⟩
    simp only [commandBody, engResetBody, engLoadBody, engMixBody, engClkBody, engKsBody,
      prngSeedBody, prngClkBody, prngNonceBody, sucBody, setUidBody, setSeedBody, setTicksBody,
      wireWrBody, Result.withKeys, map_bind]
    rfl

/-- A command other than AUTH_STEP is answered from other keys as it is from these, and the states after
differ in the keys only. -/
theorem answer_withKeys {c : CommandClass} {s u : State} {r : Result}
    (h : answer c s r = .next u) (key key' : PerEndpoint Reg48) :
    ∃ k, answer c (s.withKeys key) (Result.withKeys key' r) = .next (u.withKeys k) := by
  rcases answer_cases h with ⟨t, d, rfl, rfl⟩ | ⟨e, rfl, rfl⟩
  · exact ⟨key', rfl⟩
  · exact ⟨key, congrArg _ (raiseError_withKeys s key c e)⟩

/-- What the host is to hear of a result: the port to answer at, and the answer. -/
def heard (p : State × Data48) : HostPort × Data48 := (p.1.host, p.2)

/-- The host hears the same of two results that agree in what is to be heard. -/
theorem answer_host_congr {c : CommandClass} {s s' u : State} {r r' : Result}
    (h : answer c s r = .next u) (hs : s'.host = s.host) (hr : heard <$> r' = heard <$> r) :
    ∃ u', answer c s' r' = .next u' ∧ u'.host = u.host := by
  obtain ⟨u', hu'⟩ := answer_isNext c s' r'
  refine ⟨u', hu', ?_⟩
  rcases answer_cases h with ⟨t, d, rfl, rfl⟩ | ⟨e, rfl, rfl⟩ <;>
    rcases answer_cases hu' with ⟨t', d', rfl, rfl⟩ | ⟨e', rfl, rfl⟩ <;>
    simp_all [heard]

/-- What T2 comes to for the host: it reads both primed flags, the seed and the tick count, and no
register it loads (R230). -/
theorem transitionT2_heard (s : State) :
    (transitionT2 s >>= fun t => pure (heard (t, t.fsm.state.data))) = (do
      require (!s.eng.tag.primed) .alreadyPrimed
      require (!s.eng.reader.primed) .alreadyPrimed
      let _ ← genNonce s.cfg.seed.reader s.cfg.ticks.reader
      return (s.host, FsmState.challengeSent.data)) := by
  have hmix : ∀ v w x : Reg48, ((Engine.mk v true).withReg w).mixIn x = .ok ⟨w ^^^ x, true⟩ :=
    fun _ _ _ => rfl
  simp only [transitionT2, Engine.load, hmix, bind_assoc, pure_bind, except_bind_ok, heard]

/-- AUTH_STEP answers the same from other keys: T2 alone loads them, and its answer is read off no
register (R228 to R232). -/
theorem authStepBody_heard_withKeys (s : State) (key : PerEndpoint Reg48) :
    heard <$> authStepBody (s.withKeys key) = heard <$> authStepBody s := by
  have hfsm : (s.withKeys key).fsm = s.fsm := rfl
  cases hs : s.fsm.state <;> simp only [authStepBody, transition, hfsm, hs, map_bind, map_pure]
  case idle => simp only [transitionT1, bind_assoc]; rfl
  case nonceIssued => rw [transitionT2_heard, transitionT2_heard]; rfl
  case challengeSent => simp only [transitionT3, bind_assoc]; rfl
  case responseVerified => simp only [transitionT4, bind_assoc]; rfl

/-- Settles O53: AUTH_STEP by what the host hears of it, every other command by carrying the other keys
along unread. -/
theorem noAnswerReadsTheKey : Obligations.NoAnswerReadsTheKey := by
  intro i s t key hx
  rw [exec_eq_answer] at hx
  change ∃ u, exec i (s.withKeys key) = .next u ∧ _
  rw [exec_eq_answer]
  by_cases hi : i = .authStep
  · subst hi
    obtain ⟨u, hu, hhost⟩ := answer_host_congr (s' := s.withKeys key) hx rfl
      (authStepBody_heard_withKeys s key)
    exact ⟨u, hu, hhost, fun h => absurd rfl h⟩
  · obtain ⟨key', hbody⟩ := commandBody_withKeys hi s key
    obtain ⟨k, hk⟩ := answer_withKeys hx key key'
    exact ⟨t.withKeys k, hbody ▸ hk, rfl, fun _ => rfl⟩

end Sys2Proof.Machine
end

section
/-! The host's side of a command (20_memory.md rule R69, 30_encoding.md rule R87): pseudocode takes
nothing from the host and answers nothing itself; the one response is its answer. -/

namespace Sys2Proof.Machine

open Sys2Proof Safety

/-- A transition leaves the host's side. -/
theorem transition_host {s t : State} (h : transition s = .ok t) : t.host = s.host := by
  rcases transition_cases h with ⟨-, hT⟩ | ⟨-, hT⟩ | ⟨-, hT⟩ | ⟨-, hT⟩
  · obtain ⟨nt, term, rfl⟩ := transitionT1_writes hT; rfl
  · obtain ⟨v, nr, term, nrWire, ar, rfl⟩ := transitionT2_writes hT; rfl
  · obtain ⟨v, nr, tagResponse, rfl⟩ := transitionT3_writes hT; rfl
  · obtain ⟨v, rfl⟩ := transitionT4_writes hT; rfl

/-- The pseudocode of a command leaves the host's side where it returns. -/
theorem host_of_body {i : Instr} {s t : State} {d : Data48} (h : commandBody i s = .ok (t, d)) :
    t.host = s.host := by
  have he := effect_of_body h
  unfold Effect at he
  cases hc : classOf i <;> simp only [hc] at he
  case pure => rw [he]
  case direct => rw [he.2]
  case config => rw [he.2]
  case new => rw [he, State.freshSession_host]
  case step => exact transition_host he
  case wire => rw [he.2]

/-- Settles O12: pseudocode that returns leaves the host's side and is answered with `OK` once; an
error is answered once from the state before, with data 0. -/
theorem everyCommandGivesOneResponse : Obligations.EveryCommandGivesOneResponse := by
  intro i s t hx
  rcases exec_cases hx with ⟨u, d, hb, rfl⟩ | ⟨e, -, rfl⟩
  · refine ⟨⟨.ok, d⟩, ?_, fun herr => absurd rfl herr⟩
    rw [State.respond_host, host_of_body hb]
  · exact ⟨⟨e, 0⟩, State.raiseError_host s _ e, fun _ => rfl⟩

/-- Settles O7: a word that decodes, taken outside reset, is dispatched by `step_of_decode`. -/
theorem stepRunsTheDecodedCommand : Obligations.StepRunsTheDecodedCommand :=
  fun _ _ _ _ => step_of_decode

end Sys2Proof.Machine
end

section
/-! The decoder undoes the encoder (30_encoding.md rules R80 to R85). -/

namespace Sys2Proof

/-- The word of every command has the fixed bits of a row (R85). -/
theorem encode_matches_row : ∀ i : Instr, Laws.EncodeMatchesRow.Statement i
  | .nop => Laws.EncodeMatchesRow.nop
  | .engReset ep => Laws.EncodeMatchesRow.engReset ep
  | .engLoad ep x => Laws.EncodeMatchesRow.engLoad ep x
  | .engMix ep x => Laws.EncodeMatchesRow.engMix ep x
  | .engClk ep iv ib => Laws.EncodeMatchesRow.engClk ep iv ib
  | .engKs ep n => Laws.EncodeMatchesRow.engKs ep n
  | .engRdstate ep => Laws.EncodeMatchesRow.engRdstate ep
  | .prngSeed ep d => Laws.EncodeMatchesRow.prngSeed ep d
  | .prngClk ep => Laws.EncodeMatchesRow.prngClk ep
  | .prngNonce ep d => Laws.EncodeMatchesRow.prngNonce ep d
  | .prngRdstate ep => Laws.EncodeMatchesRow.prngRdstate ep
  | .suc d => Laws.EncodeMatchesRow.suc d
  | .filter v => Laws.EncodeMatchesRow.filter v
  | .setUid d => Laws.EncodeMatchesRow.setUid d
  | .setKey ep k => Laws.EncodeMatchesRow.setKey ep k
  | .setSeed ep d => Laws.EncodeMatchesRow.setSeed ep d
  | .setTicks ep d => Laws.EncodeMatchesRow.setTicks ep d
  | .sessionNew => Laws.EncodeMatchesRow.sessionNew
  | .authStep => Laws.EncodeMatchesRow.authStep
  | .wireWrNt d => Laws.EncodeMatchesRow.wireWrNt d
  | .wireWrNr d => Laws.EncodeMatchesRow.wireWrNr d
  | .wireWrAr d => Laws.EncodeMatchesRow.wireWrAr d
  | .wireWrAt d => Laws.EncodeMatchesRow.wireWrAt d
  | .rdStatus => Laws.EncodeMatchesRow.rdStatus
  | .rdWireNt => Laws.EncodeMatchesRow.rdWireNt
  | .rdWireNr => Laws.EncodeMatchesRow.rdWireNr
  | .rdWireAr => Laws.EncodeMatchesRow.rdWireAr
  | .rdWireAt => Laws.EncodeMatchesRow.rdWireAt

/-- The row with the opcode of a command's word reads every operand back (R80, R82 to R84). -/
theorem rowOf_encode (i : Instr) :
    (rowOf (opField (encode i))).map (·.instr (encode i)) = some i := by
  cases i <;>
    simp [encode, packEp, packData, rowOf, opcodeRows, datapathRows, sessionRows, OpcodeRow.instr]

/-- Settles O1: the word matches a row (`encode_matches_row`), the one its opcode selects, and that
row's fields are the operands (`rowOf_encode`). -/
theorem decodeUndoesEncode : Obligations.DecodeUndoesEncode := by
  intro i hwf
  obtain ⟨r, hr, hmatch⟩ := encode_matches_row i
  have hrow := rowOf_encode i
  rw [opField_of_match hr hmatch, rowOf_op hr, Option.map_some, Option.some.injEq] at hrow
  rw [decode_of_match hr hmatch, hrow, if_pos hwf]

end Sys2Proof
end

section
/-! The encoder undoes the decoder (30_encoding.md rules R80 to R85, R88): the bits a row does not fix
are the fields its command reads. -/

namespace Sys2Proof

/-- The OR of two words is the OR of their fields. -/
theorem packWord_or (op op' : BitVec 8) (ep ep' iv iv' ib ib' : Bool) (rsv rsv' : BitVec 5)
    (d d' : Data48) :
    packWord op ep rsv iv ib d ||| packWord op' ep' rsv' iv' ib' d'
      = packWord (op ||| op') (ep || ep') (rsv ||| rsv') (iv || iv') (ib || ib') (d ||| d') := by
  apply BitVec.eq_of_getLsbD_eq
  intro i _
  rw [BitVec.getLsbD_or, getLsbD_packWord, getLsbD_packWord, getLsbD_packWord]
  split_ifs <;> simp

/-- The mask that fixes `OP`, `RSV` and every bit of the other fields that is not set here: the masks
of the opcode map all have this form (R81 to R85). -/
def maskFreeing (ep iv ib : Bool) (data : Data48) : CmdWord :=
  packWord 0xFF (!ep) 0x1F (!iv) (!ib) (~~~data)

/-- A mask and the bits it leaves free make up the whole word. -/
theorem maskFreeing_or (ep iv ib : Bool) (data : Data48) :
    maskFreeing ep iv ib data ||| packWord 0 ep 0 iv ib data = BitVec.allOnes 64 := by
  have hones : packWord 0xFF true 0x1F true true (BitVec.allOnes 48) = BitVec.allOnes 64 := by
    decide
  rw [maskFreeing, packWord_or, BitVec.not_or_self, ← hones]
  simp

/-- A word that a mask takes to a bare opcode has the fixed bits at 0 and its own free bits. -/
theorem packWord_eq_of_match {op : BitVec 8} {ep iv ib : Bool} {data : Data48} {w : CmdWord}
    (h : w &&& maskFreeing ep iv ib data = packData op 0) :
    packWord op ((epField w).bit && ep) 0 (ivField w && iv) (ibField w && ib) (dataField w &&& data)
      = w := by
  have hfree : w &&& packWord 0 ep 0 iv ib data
      = packWord 0 ((epField w).bit && ep) 0 (ivField w && iv) (ibField w && ib)
        (dataField w &&& data) := by
    conv_lhs => rw [← packWord_fields w, packWord_and]
    simp
  calc
    _ = packData op 0 ||| w &&& packWord 0 ep 0 iv ib data := by
      rw [hfree, packData, packWord_or]
      simp
    _ = w := by rw [← h, ← BitVec.and_or_distrib_left, maskFreeing_or, BitVec.and_allOnes]

section
/-! One lemma per mask of the opcode map, as `Laws.EncodeMatchesRow` has them for the other
direction. -/

variable (op : BitVec 8) {w : CmdWord}

theorem packData_zero_of_match (h : w &&& 0xFFFFFFFFFFFFFFFF = packData op 0) :
    packData op 0 = w :=
  h.symm.trans BitVec.and_allOnes

theorem packEp_zero_of_match (h : w &&& 0xFF7FFFFFFFFFFFFF = packData op 0) :
    packEp op (epField w) 0 = w := by
  simpa [packEp] using packWord_eq_of_match (ep := true) (iv := false) (ib := false) (data := 0) h

theorem packEp_of_match (h : w &&& 0xFF7F000000000000 = packData op 0) :
    packEp op (epField w) (dataField w) = w := by
  simpa [packEp, -BitVec.reduceAllOnes] using
    packWord_eq_of_match (ep := true) (iv := false) (ib := false) (data := .allOnes 48) h

theorem packData_of_match (h : w &&& 0xFFFF000000000000 = packData op 0) :
    packData op (dataField w) = w := by
  simpa [packData, -BitVec.reduceAllOnes] using
    packWord_eq_of_match (ep := false) (iv := false) (ib := false) (data := .allOnes 48) h

theorem packClk_of_match (h : w &&& 0xFF7CFFFFFFFFFFFF = packData op 0) :
    packWord op (epField w).bit 0 (ivField w) (ibField w) 0 = w := by
  simpa using packWord_eq_of_match (ep := true) (iv := true) (ib := true) (data := 0) h

end

/-- A word a row matches is the word of the command its fields make (R80, R85). -/
theorem encode_instr_of_match :
    ∀ r ∈ opcodeRows, ∀ w : CmdWord, w &&& r.mask = r.matchBits → encode (r.instr w) = w := by
  simp only [opcodeRows, datapathRows, sessionRows, List.cons_append, List.nil_append,
    List.forall_mem_cons]
  exact ⟨
    fun _ => packData_zero_of_match 0x00,
    fun _ => packEp_zero_of_match 0x10,
    fun _ => packEp_of_match 0x11,
    fun _ => packEp_of_match 0x12,
    fun _ => packClk_of_match 0x13,
    fun _ => packEp_of_match 0x14,
    fun _ => packEp_zero_of_match 0x15,
    fun _ => packEp_of_match 0x20,
    fun _ => packEp_zero_of_match 0x21,
    fun _ => packEp_of_match 0x22,
    fun _ => packEp_zero_of_match 0x23,
    fun _ => packData_of_match 0x24,
    fun _ => packData_of_match 0x30,
    fun _ => packData_of_match 0x40,
    fun _ => packEp_of_match 0x41,
    fun _ => packEp_of_match 0x42,
    fun _ => packEp_of_match 0x43,
    fun _ => packData_zero_of_match 0x50,
    fun _ => packData_zero_of_match 0x51,
    fun _ => packData_of_match 0x58,
    fun _ => packData_of_match 0x59,
    fun _ => packData_of_match 0x5A,
    fun _ => packData_of_match 0x5B,
    fun _ => packData_zero_of_match 0x60,
    fun _ => packData_zero_of_match 0x61,
    fun _ => packData_zero_of_match 0x62,
    fun _ => packData_zero_of_match 0x63,
    fun _ => packData_zero_of_match 0x64,
    nofun⟩

/-- Settles O2: `decode_eq_ok` gives the row, and `encode_instr_of_match` its word. -/
theorem encodeUndoesDecode : Obligations.EncodeUndoesDecode := by
  intro w i h
  obtain ⟨r, hr, hmatch, hwf, rfl⟩ := decode_eq_ok.1 h
  exact ⟨hwf, encode_instr_of_match r hr w hmatch⟩

end Sys2Proof
end

section
/-! The opcode map as the spec's table gives it, and the illegal words (30_encoding.md rules R85
and R86). -/

namespace Sys2Proof

open Machine Safety

/-- The mnemonic of a row's commands (R85). -/
def OpcodeRow.name (r : OpcodeRow) : String := mnemonic (r.make .tag false false 0)

/-- The spec's table and the decoder's have the same rows (R85). -/
theorem opcodeMap_eq : opcodeMap = opcodeRows.map fun r => (r.name, r.matchBits, r.mask) := rfl

/-- No two rows have one mnemonic (R85). -/
theorem eq_of_name_eq {r r' : OpcodeRow} (h : r ∈ opcodeRows) (h' : r' ∈ opcodeRows)
    (hname : r.name = r'.name) : r = r' := by
  have hnodup : (opcodeRows.map (·.name)).Nodup := by decide
  exact List.inj_on_of_nodup_map hnodup h h' hname

/-- The fields of a word do not decide the mnemonic (R85). -/
theorem mnemonic_instr {r : OpcodeRow} (h : r ∈ opcodeRows) (w : CmdWord) :
    mnemonic (r.instr w) = r.name := by
  revert r
  simp only [opcodeRows, datapathRows, sessionRows, List.cons_append, List.nil_append,
    List.forall_mem_cons]
  simp [OpcodeRow.instr, OpcodeRow.name, mnemonic]

/-- The command of a matched word is well-formed but for ENG_CLK with `IV = 0, IB = 1` (R83). -/
theorem instr_wf_iff {r : OpcodeRow} (h : r ∈ opcodeRows) (w : CmdWord) :
    (r.instr w).wf = true
      ↔ ¬ (r.name = "ENG_CLK" ∧ w.getLsbD 49 = false ∧ w.getLsbD 48 = true) := by
  revert r
  simp only [opcodeRows, datapathRows, sessionRows, List.cons_append, List.nil_append,
    List.forall_mem_cons]
  simp [OpcodeRow.instr, OpcodeRow.name, mnemonic, Instr.wf, ivField, ibField,
    or_iff_not_imp_left]

/-- Settles O3: the row of a decoded word is the one of its mnemonic (`eq_of_name_eq`), and the words
it matches decode where their command is well-formed (`instr_wf_iff`). -/
theorem wordsOfARowMatchUnderItsMask : Obligations.WordsOfARowMatchUnderItsMask := by
  intro row hrow w
  rw [opcodeMap_eq, List.mem_map] at hrow
  obtain ⟨r, hr, rfl⟩ := hrow
  constructor
  · rintro ⟨i, hdec, hname⟩
    obtain ⟨r', hr', hmatch, hwf, rfl⟩ := decode_eq_ok.1 hdec
    obtain rfl : r' = r := eq_of_name_eq hr' hr ((mnemonic_instr hr' w).symm.trans hname)
    exact ⟨hmatch, (instr_wf_iff hr w).1 hwf⟩
  · rintro ⟨hmatch, hlegal⟩
    exact ⟨r.instr w, decode_eq_ok.2 ⟨r, hr, hmatch, (instr_wf_iff hr w).2 hlegal, rfl⟩,
      mnemonic_instr hr w⟩

/-- The opcodes of the map are none of R86's unassigned values, and 0x13 is ENG_CLK's. -/
theorem op_assigned {r : OpcodeRow} (h : r ∈ opcodeRows) :
    ¬ unassignedOpcode r.op.toNat ∧ (r.op = 0x13 → r.name = "ENG_CLK") := by
  revert r
  decide

/-- A word that decodes is of none of R86's three kinds. -/
theorem not_illegal_of_decode {w : CmdWord} {i : Instr} (h : decode w = .ok i) :
    ¬ unassignedOpcode (opField w).toNat
      ∧ (∃ row ∈ opcodeMap, w &&& row.2.2 = row.2.1)
      ∧ ¬ (opField w = 0x13 ∧ w.getLsbD 49 = false ∧ w.getLsbD 48 = true) := by
  obtain ⟨r, hr, hmatch, hwf, rfl⟩ := decode_eq_ok.1 h
  rw [opField_of_match hr hmatch]
  refine ⟨(op_assigned hr).1, ⟨_, opcodeMap_eq ▸ List.mem_map_of_mem hr, hmatch⟩, ?_⟩
  rintro ⟨hop, hbits⟩
  exact (instr_wf_iff hr w).1 hwf ⟨(op_assigned hr).2 hop, hbits⟩

/-- Settles O4: a word of these kinds does not decode (`not_illegal_of_decode`), and a word that does
not is answered `IllegalCommand`. -/
theorem illegalWordsChangeNothing : Obligations.IllegalWordsChangeNothing := by
  intro w hill
  cases hdec : decode w with
  | error e => exact answeredIllegal_of_error hdec
  | ok i =>
    obtain ⟨hassigned, ⟨row, hrow, hmatch⟩, hclk⟩ := not_illegal_of_decode hdec
    rcases hill with hop | hnone | hbits
    · exact absurd hop hassigned
    · exact absurd hmatch (hnone row hrow)
    · exact absurd hbits hclk

end Sys2Proof
end

section
/-! The words of the commands as numbers (30_encoding.md rules R80 to R84, R89). -/

namespace Sys2Proof

/-- The operand adds its bits to the word of the bare opcode (R84). -/
theorem packData_eq_or (op : BitVec 8) (d : Data48) :
    packData op d = packData op 0 ||| d.setWidth 64 := packWord_eq_or ..

/-- The endpoint adds bit 55 to the word (R82). -/
theorem packEp_zero_eq_or (op : BitVec 8) (ep : Endpoint) :
    packEp op ep 0 = packData op 0 ||| packEp 0 ep 0 := by
  simp [packEp, packData, packWord_or]

theorem packEp_eq_or (op : BitVec 8) (ep : Endpoint) (d : Data48) :
    packEp op ep d = packData op 0 ||| packEp 0 ep 0 ||| d.setWidth 64 := by
  rw [← packEp_zero_eq_or]
  exact packWord_eq_or ..

/-- The input fields add bits 49 and 48 to the word (R83). -/
theorem packClk_eq_or (op : BitVec 8) (ep : Endpoint) (iv ib : Bool) :
    packWord op ep.bit 0 iv ib 0
      = packData op 0 ||| packEp 0 ep 0 ||| (if iv then 0x0002000000000000 else 0)
        ||| (if ib then 0x0001000000000000 else 0) := by
  have hiv : (if iv then 0x0002000000000000 else 0) = packWord 0 false 0 iv false 0 := by
    cases iv <;> rfl
  have hib : (if ib then 0x0001000000000000 else 0) = packWord 0 false 0 false ib 0 := by
    cases ib <;> rfl
  rw [hiv, hib, ← packEp_zero_eq_or, packEp, packWord_or, packWord_or]
  simp

/-- Settles O5: every command by the lemma for the fields it reads. -/
theorem encodedFieldsStandWhereTheFormatPutsThem :
    Obligations.EncodedFieldsStandWhereTheFormatPutsThem := by
  constructor
  · intro ep x iv ib e d
    have he : e = packEp 0 ep 0 := by cases ep <;> rfl
    rw [he]
    exact ⟨packEp_zero_eq_or 0x10 ep, packEp_eq_or 0x11 ep x, packEp_eq_or 0x12 ep x,
      packClk_eq_or 0x13 ep iv ib, packEp_eq_or 0x14 ep x, packEp_zero_eq_or 0x15 ep,
      packEp_eq_or 0x20 ep x, packEp_zero_eq_or 0x21 ep, packEp_eq_or 0x22 ep x,
      packEp_zero_eq_or 0x23 ep, packEp_eq_or 0x41 ep x, packEp_eq_or 0x42 ep x,
      packEp_eq_or 0x43 ep x⟩
  · intro x d
    exact ⟨packData_eq_or 0x24 x, packData_eq_or 0x30 x, packData_eq_or 0x40 x,
      packData_eq_or 0x58 x, packData_eq_or 0x59 x, packData_eq_or 0x5A x, packData_eq_or 0x5B x⟩

/-- Settles O6: each is the decoder run on one word. -/
theorem sampleWordsDecode : Obligations.SampleWordsDecode :=
  ⟨rfl, rfl, rfl, rfl, rfl, rfl, rfl, rfl, rfl, rfl, rfl⟩

end Sys2Proof
end

section
/-! The Bit Register primitives (40_bit_register.md rules R121, R124, R125). -/

namespace Sys2Proof.Machine

/-- Integer bit `N-1` of a shifted register is the inserted bit (R121). -/
theorem shiftIn_getLsbD_last {n : Nat} (v : BitVec (n + 1)) (b : Bool) :
    (shiftIn v b).1.getLsbD n = b := by
  rw [shiftIn_getLsbD v b n (Nat.lt_succ_self n), if_pos (Nat.add_sub_cancel n 1).symm]

/-- Every other integer bit comes from one place above (R121). -/
theorem shiftIn_getLsbD_of_lt {n i : Nat} (v : BitVec (n + 1)) (b : Bool) (hi : i < n) :
    (shiftIn v b).1.getLsbD i = v.getLsbD (i + 1) := by
  rw [shiftIn_getLsbD v b i (by omega), if_neg (by omega)]

/-- Settles O13: `shiftIn_getLsbD` at the last integer bit and below it. -/
theorem shiftInMovesEveryIndexUpByOne : Obligations.ShiftInMovesEveryIndexUpByOne :=
  fun _ v b => ⟨shiftIn_snd v b, shiftIn_getLsbD_last v b, fun _ hi => shiftIn_getLsbD_of_lt v b hi⟩

/-- Settles O14: a value below `2 ^ width` is its own remainder, so the cut to the width keeps it. -/
theorem fromIntegerAcceptsWhatFits : Obligations.FromIntegerAcceptsWhatFits := by
  intro width v
  constructor
  · intro hfits
    have hkeeps : (v.setWidth width).toNat = v.toNat := by
      rw [BitVec.toNat_setWidth, Nat.mod_eq_of_lt hfits]
    exact ⟨v.setWidth width, fromInteger_of_lt hfits, hkeeps⟩
  · exact fromInteger_of_ge

end Sys2Proof.Machine
end

section
/-! The filter (41_filter.md rules R140 to R146). -/

namespace Sys2Proof.Machine

open Sys2Proof Safety

/-- The filter reads the odd indices from 9 to 47 and no other (R145). -/
theorem filterBit_congr {v w : Reg48}
    (h : ∀ i, 9 ≤ i → i ≤ 47 → i % 2 = 1 → idx v i = idx w i) : filterBit v = filterBit w := by
  simp (disch := decide) only [filterBit, h]

/-- A clock moves every index up by one, whatever it shifts in (R192). -/
theorem idx_engClock_succ (v : Reg48) (input : Option Bool) {i : Nat} (hi : i + 1 < 48) :
    idx (engClock v input).1 (i + 1) = idx v i :=
  idx_shiftIn_succ v _ i hi

/-- Settles O17: an odd index the filter reads after the clock is the even index below it before
(`idx_engClock_succ`), and never index 0, where the input and feedback bits go. -/
theorem filterReadsOnlyTheOddIndicesFromNine :
    Obligations.FilterReadsOnlyTheOddIndicesFromNine := by
  refine ⟨fun v w => filterBit_congr, fun v w a b h => ?_⟩
  rw [engClock_snd, engClock_snd]
  refine filterBit_congr fun i hlo hhi hodd => ?_
  obtain ⟨j, rfl⟩ : ∃ j, i = j + 1 := ⟨i - 1, by omega⟩
  rw [idx_engClock_succ v a (by omega), idx_engClock_succ w b (by omega)]
  exact h j (by omega) (by omega) (by omega)

/-- One index alone gives 1 for indices 9, 11 and 45 only (R146). -/
theorem filterBit_oneHot : ∀ i, i < 48 →
    (filterBit (1#48 <<< (47 - i)) = true ↔ i = 9 ∨ i = 11 ∨ i = 45) := by
  decide

/-- Settles O15: the sub-functions by their 16 and 32 inputs, the one-hot registers by
`filterBit_oneHot`. -/
theorem filterTruthTables : Obligations.FilterTruthTables :=
  ⟨by decide, by decide, filterBit_oneHot⟩

/-- A bit in a data word is 1 or 0. -/
theorem bitData_eq_ite (b : Bool) : bitData b = if b then 1 else 0 := by
  cases b <;> rfl

/-- FILTER answers the filter of its operand, in every state (R146). -/
theorem exec_filter (v : Data48) (s : State) :
    exec (.filter v) s = .next (readsAs s (bitData (filterBit v))) := rfl

/-- Settles O16: the row of `OP` 0x30 reads the operand back, and FILTER answers the filter in integer
bits (`filterBit_eq`). -/
theorem filterCommandReturnsF : Obligations.FilterCommandReturnsF := by
  constructor
  · have hrow : rowOf 0x30
        = some ⟨0x30, 0x3000000000000000, 0xFFFF000000000000, fun _ _ _ d => .filter d⟩ := rfl
    exact encodes_of_row 0x30 hrow rfl (fun _ => rfl) (fun _ => rfl)
  · intro v s
    rw [exec_filter, bitData_eq_ite, filterBit_eq]

end Sys2Proof.Machine
end

section
/-! The PRNG's clock, bit by bit, and its outputs (42_prng.md rules R160, R161, R165). -/

namespace Sys2Proof.Machine

open Sys2Proof

/-- Below the top, a clock moves every integer bit down one place (R161). -/
theorem prngClock_getLsbD_of_lt (v : Reg16) {i : Nat} (hi : i < 15) :
    (prngClock v).1.getLsbD i = v.getLsbD (i + 1) := by
  rw [prngClock_getLsbD v i (by omega), if_neg (by omega)]

/-- Settles O18: the top bit is the feedback, in integer bits by `prngFeedback_eq`. -/
theorem prngClockFeedsBackItsFourTaps : Obligations.PrngClockFeedsBackItsFourTaps := by
  intro v
  refine ⟨prngClock_snd v, ?_, fun i hi => prngClock_getLsbD_of_lt v hi⟩
  rw [prngClock_getLsbD v 15 (by omega), if_pos rfl, prngFeedback_eq]

/-- After `n` clocks an integer bit holds what stood `n` places above it (R161). -/
theorem prngClockN_getLsbD (n : Nat) (v : Reg16) {i : Nat} (hi : i + n < 16) :
    (prngClockN n v).getLsbD i = v.getLsbD (i + n) := by
  induction n generalizing v with
  | zero => rfl
  | succ n ih =>
    rw [prngClockN_succ, ih _ (by omega), prngClock_getLsbD_of_lt v (by omega), Nat.add_assoc]

/-- Settles O21: the output of a clock is bit 0 before it, and `k` clocks bring bit `k` there. -/
theorem sixteenOutputsAreTheRegister : Obligations.SixteenOutputsAreTheRegister := by
  intro v k hk
  rw [prngClock_snd, prngClockN_getLsbD k v (by omega), Nat.zero_add]

end Sys2Proof.Machine
end

section
/-! The cycle of the PRNG (42_prng.md rules R162, R163). The clock is linear and satisfies
`x¹⁶ = x⁵ + x³ + x² + 1`; squaring that equation gives the same one for 2, 4, 8, ... clocks at a
time, so 65536 clocks of one register are computed in few. -/

namespace Sys2Proof.Machine

open Sys2Proof

/-- The clock is linear: each of its bits is an XOR of bits of the register (R160, R161). -/
theorem prngClock_xor (v w : Reg16) :
    (prngClock (v ^^^ w)).1 = (prngClock v).1 ^^^ (prngClock w).1 := by
  apply BitVec.eq_of_getLsbD_eq
  intro i hi
  rw [BitVec.getLsbD_xor, prngClock_getLsbD _ i hi, prngClock_getLsbD _ i hi,
    prngClock_getLsbD _ i hi]
  split
  · simp only [prngFeedback_eq, BitVec.getLsbD_xor, Bool.xor_assoc, Bool.xor_left_comm]
  · exact BitVec.getLsbD_xor

theorem prngClockN_xor (n : Nat) (v w : Reg16) :
    prngClockN n (v ^^^ w) = prngClockN n v ^^^ prngClockN n w := by
  induction n generalizing v w with
  | zero => rfl
  | succ n ih => simp only [prngClockN_succ, prngClock_xor, ih]

/-- A linear clock that sends only 0 to 0 keeps registers apart (R163). -/
theorem prngClock_injective : Function.Injective fun v : Reg16 => (prngClock v).1 := by
  intro v w h
  by_contra hne
  refine prngClock_ne_zero (v := v ^^^ w) (fun h0 => hne (BitVec.xor_eq_zero_iff.1 h0)) ?_
  rw [prngClock_xor]
  exact BitVec.xor_eq_zero_iff.2 h

/-- The equation `x¹⁶ = x⁵ + x³ + x² + 1` for `n` clocks at a time. -/
def SatisfiesFeedback (n : Nat) : Prop :=
  ∀ v : Reg16, prngClockN (16 * n) v
    = v ^^^ prngClockN (2 * n) v ^^^ prngClockN (3 * n) v ^^^ prngClockN (5 * n) v

/-- Integer bit `k` after `j` clocks is bit `j` after `k`: both are the output numbered `j + k`. -/
theorem prngClockN_getLsbD_comm (v : Reg16) {j k : Nat} (hj : j < 16) (hk : k < 16) :
    (prngClockN j v).getLsbD k = (prngClockN k v).getLsbD j := by
  have houtput : ∀ m n, n < 16 →
      (prngClockN m v).getLsbD n = (prngClockN (m + n) v).getLsbD 0 := by
    intro m n hn
    rw [prngClockN_add, prngClockN_getLsbD n _ (by omega), Nat.zero_add]
  rw [houtput j k hk, houtput k j hj, Nat.add_comm]

/-- Integer bit `k` after 16 clocks is what the clock numbered `k` fed back (R160, R165). -/
theorem satisfiesFeedback_one : SatisfiesFeedback 1 := by
  intro v
  apply BitVec.eq_of_getLsbD_eq
  intro k hk
  have hfed : (prngClockN (16 * 1) v).getLsbD k = prngFeedback (prngClockN k v) := by
    rw [show 16 * 1 = k + 1 + (15 - k) by omega, prngClockN_add, prngClockN_getLsbD _ _ (by omega),
      show k + (15 - k) = 15 by omega, prngClockN_succ', prngClock_getLsbD _ 15 (by omega),
      if_pos rfl]
  have htap : ∀ j < 16, (prngClockN k v).getLsbD j = (prngClockN j v).getLsbD k :=
    fun j hj => prngClockN_getLsbD_comm v hk hj
  rw [hfed, prngFeedback_eq, htap 5 (by omega), htap 3 (by omega), htap 2 (by omega),
    htap 0 (by omega), prngClockN_zero]
  simp only [BitVec.getLsbD_xor, Nat.mul_one, Bool.xor_comm]

/-- Squaring the equation: the clocks of a cross term come twice, and cancel. -/
theorem satisfiesFeedback_double {n : Nat} (h : SatisfiesFeedback n) :
    SatisfiesFeedback (2 * n) := by
  intro v
  have hsum : ∀ a b, prngClockN (a * n) (prngClockN (b * n) v) = prngClockN ((b + a) * n) v := by
    intro a b
    rw [Nat.add_mul, prngClockN_add]
  rw [show 16 * (2 * n) = 16 * n + 16 * n by omega, prngClockN_add, h v, h]
  simp only [prngClockN_xor, hsum, ← Nat.mul_assoc]
  apply BitVec.eq_of_getLsbD_eq
  intro i _
  simp only [BitVec.getLsbD_xor, Bool.xor_assoc]
  simp [Bool.xor_left_comm]

theorem satisfiesFeedback_two_pow (k : Nat) : SatisfiesFeedback (2 ^ k) := by
  induction k with
  | zero => exact satisfiesFeedback_one
  | succ k ih => rw [Nat.pow_succ']; exact satisfiesFeedback_double ih

/-- `16 ^ k` clocks at once, by the equation: five times `16 ^ (k - 1)` clocks in place of
sixteen. -/
def prngSkip : Nat → Reg16 → Reg16
  | 0, v => (prngClock v).1
  | k + 1, v =>
    let v2 := prngSkip k (prngSkip k v)
    let v3 := prngSkip k v2
    v ^^^ v2 ^^^ v3 ^^^ prngSkip k (prngSkip k v3)

theorem prngSkip_eq (k : Nat) (v : Reg16) : prngSkip k v = prngClockN (16 ^ k) v := by
  induction k generalizing v with
  | zero => rfl
  | succ k ih =>
    have hsat : SatisfiesFeedback (16 ^ k) := by
      rw [show (16 : Nat) = 2 ^ 4 from rfl, ← Nat.pow_mul]
      exact satisfiesFeedback_two_pow (4 * k)
    rw [Nat.pow_succ', hsat v]
    simp only [prngSkip, ih, ← prngClockN_add, ← Nat.two_mul, ← Nat.succ_mul]

/-- Clocks taken many at a time. -/
theorem iterate_prngClockN (m n : Nat) : (prngClockN m)^[n] = prngClockN (m * n) := by
  induction n with
  | zero => rfl
  | succ n ih =>
    funext v
    rw [Function.iterate_succ_apply', ih, Nat.mul_succ, prngClockN_add]

/-- The clocks of a count, by its four digits to the base 16. -/
theorem prngClockN_eq_skips (a b c d : Nat) (v : Reg16) :
    prngClockN (a + 16 * b + 256 * c + 4096 * d) v
      = (prngSkip 3)^[d] ((prngSkip 2)^[c] ((prngSkip 1)^[b] ((prngSkip 0)^[a] v))) := by
  have hskip : ∀ k, prngSkip k = prngClockN (16 ^ k) := fun k => funext (prngSkip_eq k)
  simp only [hskip, iterate_prngClockN, ← prngClockN_add]
  norm_num

/-- From 1 the register is back at 1 after 65535 clocks: 65536 take it where one clock does. -/
theorem prngClockN_65535_one : prngClockN 65535 1 = 1 := by
  have h : prngSkip 4 1 = (prngClock 1).1 := by decide +kernel
  rw [prngSkip_eq] at h
  exact prngClock_injective ((prngClockN_succ' 65535 1).symm.trans h)

/-- From 1 the register is not back at 1 after 65535 clocks divided by any prime. -/
theorem prngClockN_one_div {p : Nat} (hp : p.Prime) (hdvd : p ∣ 65535) :
    prngClockN (65535 / p) 1 ≠ 1 := by
  have hprime : p = 3 ∨ p = 5 ∨ p = 17 ∨ p = 257 := by
    have hprime_dvd : ∀ {q}, q.Prime → (p ∣ q ↔ p = q) := Nat.prime_dvd_prime_iff_eq hp
    rwa [show 65535 = 3 * (5 * (17 * 257)) from rfl, hp.dvd_mul, hp.dvd_mul, hp.dvd_mul,
      hprime_dvd (by norm_num), hprime_dvd (by norm_num), hprime_dvd (by norm_num),
      hprime_dvd (by norm_num)] at hdvd
  rcases hprime with rfl | rfl | rfl | rfl
  · rw [show 65535 / 3 = 0x5555 from rfl, prngClockN_eq_skips 5 5 5 5]
    decide +kernel
  · rw [show 65535 / 5 = 0x3333 from rfl, prngClockN_eq_skips 3 3 3 3]
    decide +kernel
  · rw [show 65535 / 17 = 0x0F0F from rfl, prngClockN_eq_skips 15 0 15 0]
    decide +kernel
  · rw [show 65535 / 257 = 0x00FF from rfl, prngClockN_eq_skips 15 15 0 0]
    decide +kernel

open Function

/-- The periods of a register are the counts of clocks that bring it back. -/
theorem isPeriodicPt_prngClockN {n : Nat} {v : Reg16} :
    IsPeriodicPt (prngClockN 1) n v ↔ prngClockN n v = v := by
  rw [IsPeriodicPt, IsFixedPt, iterate_prngClockN, Nat.one_mul]

/-- The period of 1 divides 65535, and no quotient of 65535 by a prime is one. -/
theorem minimalPeriod_prngClockN_one : minimalPeriod (prngClockN 1) 1 = 65535 := by
  obtain ⟨m, hm⟩ := (isPeriodicPt_prngClockN.2 prngClockN_65535_one).minimalPeriod_dvd
  suffices hm1 : m = 1 by rw [hm1, Nat.mul_one] at hm; exact hm.symm
  by_contra hne
  obtain ⟨p, hp, k, rfl⟩ := Nat.exists_prime_and_dvd hne
  have hmul : 65535 = p * (minimalPeriod (prngClockN 1) 1 * k) := by rw [hm]; ring
  refine prngClockN_one_div hp ⟨_, hmul⟩ (isPeriodicPt_prngClockN.1 ?_)
  rw [hmul, Nat.mul_div_cancel_left _ hp.pos]
  exact (isPeriodicPt_minimalPeriod _ _).mul_const k

/-- A cycle of length 65535 that avoids 0 holds every other value: there are no more. -/
theorem prngClockN_reaches {u v : Reg16} (hper : minimalPeriod (prngClockN 1) u = 65535)
    (hu : u ≠ 0) (hv : v ≠ 0) : ∃ n < 65535, prngClockN n u = v := by
  have hinj : Set.InjOn (fun n => prngClockN n u) (Finset.range 65535) := by
    have h := iterate_injOn_Iio_minimalPeriod (f := prngClockN 1) (x := u)
    simpa only [hper, iterate_prngClockN, Nat.one_mul, Finset.coe_range] using h
  have hcard : ({0}ᶜ : Finset Reg16).card ≤ (Finset.range 65535).card := by
    rw [Finset.card_compl, Finset.card_singleton, Finset.card_range,
      ← FinEnum.card_eq_fintypeCard, FinEnum.card_bitVec]
    norm_num
  have hsurj := Finset.surjOn_of_injOn_of_card_le _
    (fun n _ => by simpa using prngClockN_ne_zero n hu) hinj hcard
  obtain ⟨n, hn, h⟩ := hsurj (by simpa using hv : v ∈ ↑({0}ᶜ : Finset Reg16))
  exact ⟨n, Finset.mem_range.1 hn, h⟩

/-- The period of every non-zero value (R163): each lies on the cycle of 1. -/
theorem minimalPeriod_prngClockN_of_ne_zero {v : Reg16} (hv : v ≠ 0) :
    minimalPeriod (prngClockN 1) v = 65535 := by
  obtain ⟨n, -, rfl⟩ := prngClockN_reaches minimalPeriod_prngClockN_one (by decide) hv
  have hper : (1 : Reg16) ∈ periodicPts (prngClockN 1) :=
    minimalPeriod_pos_iff_mem_periodicPts.1 (by rw [minimalPeriod_prngClockN_one]; decide)
  have h := minimalPeriod_apply_iterate hper n
  rwa [iterate_prngClockN, Nat.one_mul, minimalPeriod_prngClockN_one] at h

/-- Settles O19: every non-zero value has the period 65535 of 1, so its cycle reaches the others
(`prngClockN_reaches`); an injective clock of finitely many values is a bijection. -/
theorem prngCycleHasPeriod65535 : Obligations.PrngCycleHasPeriod65535 := by
  have hper : ∀ v : Reg16, v ≠ 0 → minimalPeriod (prngClockN 1) v = 65535 :=
    fun v => minimalPeriod_prngClockN_of_ne_zero
  refine ⟨fun v hv => ⟨?_, fun n hpos hlt hback => ?_, fun n => prngClockN_ne_zero n hv⟩,
    fun v w hv hw => prngClockN_reaches (hper v hv) hv hw,
    Finite.injective_iff_bijective.1 prngClock_injective⟩
  · exact isPeriodicPt_prngClockN.1 (hper v hv ▸ isPeriodicPt_minimalPeriod _ _)
  · have hle := (isPeriodicPt_prngClockN.2 hback).minimalPeriod_le hpos
    rw [hper v hv] at hle
    omega

end Sys2Proof.Machine
end

section
/-! Nonce generation, and the register a seeded PRNG holds (42_prng.md rules R162 to R167). -/

namespace Sys2Proof.Machine

open Sys2Proof Safety

/-- Settles O22: `gen_nonce` by its three outcomes, and the halves of a joined nonce read back. -/
theorem secondNonceHalfIsSixteenClocksOfTheFirst :
    Obligations.SecondNonceHalfIsSixteenClocksOfTheFirst := by
  intro seed ticks
  refine ⟨genNonce_badTicks, fun ht hs => hs ▸ genNonce_zeroSeed ht,
    fun ht hs => ⟨_, _, genNonce_ok ht hs, ?_⟩⟩
  have hhigh : ∀ first second : Reg16, (first ++ second).extractLsb' 16 16 = first :=
    fun _ _ => BitVec.extractLsb'_append_eq_left
  have hlow : ∀ first second : Reg16, (first ++ second).extractLsb' 0 16 = second :=
    fun _ _ => BitVec.extractLsb'_append_eq_right
  rw [hhigh, hlow]
  exact ⟨rfl, rfl, rfl⟩

/-- The register `gen_nonce` leaves is not 0: it is clocks of a seed that is not (R163, R164). -/
theorem genNonce_term_ne_zero {seed : Reg16} {ticks : BitVec 16} {nonce : Nonce32} {term : Reg16}
    (h : genNonce seed ticks = .ok (nonce, term)) : term ≠ 0 := by
  obtain ⟨-, hs, -, rfl⟩ := genNonce_eq_ok h
  exact prngClockN_ne_zero _ (prngClockN_ne_zero _ (prngClockN_ne_zero _ hs))

/-- Every PRNG that held a non-zero value in `s` holds one in `t`. -/
def KeepsPrngSeeded (s t : State) : Prop :=
  ∀ ep, (s.prng.get ep).reg ≠ 0 → (t.prng.get ep).reg ≠ 0

theorem keepsPrngSeeded_of_eq {s t : State} (h : t.prng = s.prng) : KeepsPrngSeeded s t :=
  fun _ hne => h ▸ hne

/-- A non-zero value may be written to an endpoint's PRNG. -/
theorem keepsPrngSeeded_of_set {s t : State} {ep : Endpoint} {v : Reg16} (hv : v ≠ 0)
    (h : t.prng = s.prng.set ep ⟨v⟩) : KeepsPrngSeeded s t := by
  intro ep' hne
  rw [h]
  by_cases he : ep' = ep
  · rwa [he, PerEndpoint.get_set]
  · rwa [PerEndpoint.get_set_of_ne _ _ he]

/-- T1 and T2 write the register of a nonce, T3 and T4 no PRNG (R229 to R232). -/
theorem keepsPrngSeeded_of_transition {s t : State} (h : transition s = .ok t) :
    KeepsPrngSeeded s t := by
  rcases transition_cases h with ⟨-, hT⟩ | ⟨-, hT⟩ | ⟨-, hT⟩ | ⟨-, hT⟩
  · simp only [transitionT1, except_bind_eq_ok, except_pure, Except.ok.injEq] at hT
    obtain ⟨⟨nt, term⟩, hgen, rfl⟩ := hT
    exact keepsPrngSeeded_of_set (ep := .tag) (genNonce_term_ne_zero hgen) rfl
  · simp only [transitionT2, except_bind_eq_ok, except_pure, Except.ok.injEq] at hT
    obtain ⟨_, _, _, _, ⟨nr, term⟩, hgen, _, _, rfl⟩ := hT
    exact keepsPrngSeeded_of_set (ep := .reader) (genNonce_term_ne_zero hgen) rfl
  · obtain ⟨_, _, _, rfl⟩ := transitionT3_writes hT
    exact keepsPrngSeeded_of_eq rfl
  · obtain ⟨_, rfl⟩ := transitionT4_writes hT
    exact keepsPrngSeeded_of_eq rfl

/-- A direct command writes no PRNG, or a seed or clocks of one (R170 to R172). -/
theorem keepsPrngSeeded_of_direct {i : Instr} {s t : State} {d : Data48} (hc : classOf i = .direct)
    (hb : commandBody i s = .ok (t, d)) : KeepsPrngSeeded s t := by
  cases i <;> simp only [classOf, reduceCtorEq] at hc <;>
    simp only [commandBody, engResetBody, engLoadBody, engMixBody, engClkBody, engKsBody,
      prngSeedBody, prngClkBody, prngNonceBody, except_bind_eq_ok, except_pure, Except.ok.injEq,
      Prod.mk.injEq, gate_eq_ok, require_eq_ok, bne_iff_ne, exists_const] at hb
  case prngSeed =>
    obtain ⟨-, seed, -, hseed, rfl, -⟩ := hb
    exact keepsPrngSeeded_of_set hseed rfl
  case prngClk =>
    obtain ⟨-, hreg, rfl, -⟩ := hb
    exact keepsPrngSeeded_of_set (prngClock_ne_zero hreg) rfl
  case prngNonce =>
    obtain ⟨-, _, -, ⟨nonce, term⟩, hgen, rfl, -⟩ := hb
    exact keepsPrngSeeded_of_set (genNonce_term_ne_zero hgen) rfl
  case engReset => obtain ⟨_, rfl, _⟩ := hb; exact keepsPrngSeeded_of_eq rfl
  case engLoad => obtain ⟨_, _, _, rfl, _⟩ := hb; exact keepsPrngSeeded_of_eq rfl
  case engMix => obtain ⟨_, _, _, rfl, _⟩ := hb; exact keepsPrngSeeded_of_eq rfl
  case engClk => obtain ⟨_, _, _, _, rfl, _⟩ := hb; exact keepsPrngSeeded_of_eq rfl
  case engKs => obtain ⟨_, _, _, _, rfl, _⟩ := hb; exact keepsPrngSeeded_of_eq rfl

/-- Every command keeps a seeded PRNG seeded where its pseudocode returns. -/
theorem keepsPrngSeeded_of_body {i : Instr} {s t : State} {d : Data48}
    (hb : commandBody i s = .ok (t, d)) : KeepsPrngSeeded s t := by
  have he := effect_of_body hb
  unfold Effect at he
  cases hc : classOf i <;> simp only [hc] at he
  case pure => exact keepsPrngSeeded_of_eq (by rw [he])
  case direct => exact keepsPrngSeeded_of_direct hc hb
  case config => exact keepsPrngSeeded_of_eq (by rw [he.2])
  case new => exact keepsPrngSeeded_of_eq (by rw [he, State.freshSession_prng])
  case step => exact keepsPrngSeeded_of_transition he
  case wire => exact keepsPrngSeeded_of_eq (by rw [he.2])

theorem keepsPrngSeeded_of_exec {i : Instr} {s t : State} (hx : exec i s = .next t) :
    KeepsPrngSeeded s t := by
  rcases exec_cases hx with ⟨u, d, hb, rfl⟩ | ⟨e, -, rfl⟩
  · have hkeep := keepsPrngSeeded_of_body hb
    exact hkeep
  · exact keepsPrngSeeded_of_eq (State.raiseError_prng s _ e)

/-- Settles O20: no event but the assertion of reset writes a PRNG itself, and a command by
`keepsPrngSeeded_of_exec`. -/
theorem nonZeroPrngStaysNonZero : Obligations.NonZeroPrngStaysNonZero := by
  intro s t ep hreset hstep hne
  rcases step_cases hstep with
    ⟨-, rfl⟩ | ⟨hp, -⟩ | ⟨-, rfl⟩ | ⟨-, rfl⟩ | rfl | ⟨i, -, hx⟩
  · exact hne
  · exact absurd hp hreset
  · exact hne
  · exact hne
  · exact hne
  · exact keepsPrngSeeded_of_exec hx ep hne

end Sys2Proof.Machine
end

section
/-! How a direct command is answered (44_auth_fsm.md rule R221, 60_exceptions.md rules R281 to R283):
by what its pseudocode comes to, and by whether a handshake is in progress. -/

namespace Sys2Proof.Machine

open Sys2Proof Safety

/-- A command whose pseudocode returns is answered `OK` with what it returns (R87). -/
theorem exec_of_body_ok {i : Instr} {s t u : State} {d : Data48}
    (hb : commandBody i s = .ok (t, d)) (hu : t.respond .ok d = u) : exec i s = .next u := by
  rw [exec_eq_answer, hb, answer_ok, hu]

/-- A direct command that passes the gate first enters `Failed` in handshake (R221, R283). -/
theorem exec_direct_of_handshake {i : Instr} {s : State} {f : Unit → Result}
    (hc : classOf i = .direct) (h : InHandshake s) (hb : commandBody i s = gate s >>= f) :
    exec i s = .next (failsWith s .protocolViolation) := by
  rw [exec_eq_answer, hc, hb, gate_handshake h, except_bind_error, answer_error,
    raiseError_direct_handshake h]

/-- A direct command's error outside a handshake changes no state (R283). -/
theorem exec_direct_of_error {i : Instr} {s : State} {e : ErrCode} (hc : classOf i = .direct)
    (h : Outside s) (hb : commandBody i s = .error e) : exec i s = .next (refusedWith s e) := by
  rw [exec_eq_answer, hc, hb, answer_error, raiseError_direct_outside h]

end Sys2Proof.Machine
end

section
/-! The PRNG commands (42_prng.md rules R170 to R172): what the pseudocode of each comes to. -/

namespace Sys2Proof.Machine

open Sys2Proof Safety

/-! ### PRNG_SEED -/

section

variable {ep : Endpoint} {data : Data48} {s : State}

theorem prngSeedBody_ok (h : Outside s) (hfits : data.toNat < 2 ^ 16) (hne : data ≠ 0) :
    prngSeedBody ep data s = .ok (s.setPrng ep (data.setWidth 16), 0) := by
  have hseed : (data.setWidth 16 != (0 : Reg16)) = true := by
    rw [bne_iff_ne]
    intro h0
    have hnat := congrArg BitVec.toNat h0
    rw [BitVec.toNat_setWidth, Nat.mod_eq_of_lt hfits] at hnat
    exact hne (BitVec.eq_of_toNat_eq hnat)
  simp only [prngSeedBody, gate_outside h, operandData16, fromInteger_of_lt hfits, hseed,
    require_true, except_bind_ok, except_pure]

theorem prngSeedBody_wide (h : Outside s) (hwide : 2 ^ 16 ≤ data.toNat) :
    prngSeedBody ep data s = .error .invalidWidth := by
  simp [prngSeedBody, gate_outside h, operandData16, fromInteger_of_ge hwide]

theorem prngSeedBody_zero (h : Outside s) : prngSeedBody ep 0 s = .error .zeroSeed := by
  simp [prngSeedBody, gate_outside h, operandData16, fromInteger]

end

/-- Settles O23: the row of `OP` 0x20 reads `EP` and the operand back, and each outcome of the
pseudocode is answered as that of a direct command. -/
theorem prngSeedLoadsTheRegister : Obligations.PrngSeedLoadsTheRegister := by
  constructor
  · have hrow : rowOf 0x20
        = some ⟨0x20, 0x2000000000000000, 0xFF7F000000000000, fun ep _ _ d => .prngSeed ep d⟩ := rfl
    exact encodes_of_row 0x20 hrow rfl (fun _ => rfl) (fun _ => rfl)
  · intro ep data s
    refine ⟨fun h hfits hne => exec_of_body_ok (prngSeedBody_ok h hfits hne) rfl,
      fun h => exec_direct_of_handshake rfl h rfl,
      fun h hwide => exec_direct_of_error rfl h (prngSeedBody_wide h hwide), ?_⟩
    rintro h rfl
    exact exec_direct_of_error rfl h (prngSeedBody_zero h)

/-! ### PRNG_CLK -/

section

variable {ep : Endpoint} {s : State}

theorem prngClkBody_ok (h : Outside s) (hne : (s.prng.get ep).reg ≠ 0) :
    prngClkBody ep s = .ok (s.setPrng ep (prngClock (s.prng.get ep).reg).1,
      bitData ((s.prng.get ep).reg.getLsbD 0)) := by
  have hreg : ((s.prng.get ep).reg != 0) = true := bne_iff_ne.2 hne
  simp only [prngClkBody, gate_outside h, hreg, require_true, except_bind_ok, except_pure,
    prngClock_snd]

theorem prngClkBody_zero (h : Outside s) (h0 : (s.prng.get ep).reg = 0) :
    prngClkBody ep s = .error .zeroSeed := by
  simp [prngClkBody, gate_outside h, h0]

end

/-- Settles O24: the row of `OP` 0x21 reads `EP` back, and each outcome of the pseudocode is answered
as that of a direct command. -/
theorem prngClkClocksOnce : Obligations.PrngClkClocksOnce := by
  constructor
  · have hrow : rowOf 0x21
        = some ⟨0x21, 0x2100000000000000, 0xFF7FFFFFFFFFFFFF, fun ep _ _ _ => .prngClk ep⟩ := rfl
    exact encodes_of_row 0x21 hrow rfl (fun _ => rfl) (fun _ => rfl)
  · intro ep s
    refine ⟨fun h hne => ?_, fun h => exec_direct_of_handshake rfl h rfl,
      fun h h0 => exec_direct_of_error rfl h (prngClkBody_zero h h0)⟩
    rw [← bitData_eq_ite]
    exact exec_of_body_ok (prngClkBody_ok h hne) rfl

/-! ### PRNG_NONCE -/

/-- The fields of a nonce's arguments, which the width check leaves as they are (R84). -/
theorem operandNonceArgs_of_lt {data : Data48} (hfits : data.toNat < 2 ^ 32) :
    operandNonceArgs data = .ok (data.extractLsb' 0 16, data.extractLsb' 16 16) := by
  simp only [operandNonceArgs, fromInteger_of_lt hfits, except_bind_ok, except_pure]
  rw [BitVec.extractLsb'_setWidth_of_le (by decide), BitVec.extractLsb'_setWidth_of_le (by decide)]

section

variable {ep : Endpoint} {data : Data48} {s : State}

/-- Past the gate and the width, PRNG_NONCE writes and answers what `gen_nonce` returns (R172). -/
theorem prngNonceBody_ok {nonce : Nonce32} {term : Reg16} (h : Outside s)
    (hfits : data.toNat < 2 ^ 32)
    (hgen : genNonce (data.extractLsb' 0 16) (data.extractLsb' 16 16) = .ok (nonce, term)) :
    prngNonceBody ep data s = .ok (s.setPrng ep term, zext48 nonce) := by
  simp only [prngNonceBody, gate_outside h, operandNonceArgs_of_lt hfits, hgen, except_bind_ok,
    except_pure]

/-- Past the gate and the width, PRNG_NONCE raises what `gen_nonce` raises (R172). -/
theorem prngNonceBody_error {e : ErrCode} (h : Outside s) (hfits : data.toNat < 2 ^ 32)
    (hgen : genNonce (data.extractLsb' 0 16) (data.extractLsb' 16 16) = .error e) :
    prngNonceBody ep data s = .error e := by
  simp only [prngNonceBody, gate_outside h, operandNonceArgs_of_lt hfits, hgen, except_bind_ok,
    except_bind_error]

theorem prngNonceBody_wide (h : Outside s) (hwide : 2 ^ 32 ≤ data.toNat) :
    prngNonceBody ep data s = .error .invalidWidth := by
  simp only [prngNonceBody, gate_outside h, operandNonceArgs, fromInteger_of_ge hwide,
    except_bind_ok, except_bind_error]

end

/-- Settles O25: past the gate and the width the outcome is that of `gen_nonce`, and the register it
leaves is twice sixteen clocks from the first half. -/
theorem prngNonceReturnsTheNonceAndLeavesItsTerminalState :
    Obligations.PrngNonceReturnsTheNonceAndLeavesItsTerminalState := by
  constructor
  · have hrow : rowOf 0x22
        = some ⟨0x22, 0x2200000000000000, 0xFF7F000000000000, fun ep _ _ d => .prngNonce ep d⟩ :=
      rfl
    exact encodes_of_row 0x22 hrow rfl (fun _ => rfl) (fun _ => rfl)
  · intro ep data s seed ticks first
    refine ⟨fun h hfits ht hs => ?_, fun h => exec_direct_of_handshake rfl h rfl,
      fun h hwide => exec_direct_of_error rfl h (prngNonceBody_wide h hwide),
      fun h hfits ht => exec_direct_of_error rfl h (prngNonceBody_error h hfits ?_),
      fun h hfits ht h0 => exec_direct_of_error rfl h (prngNonceBody_error h hfits ?_)⟩
    · rw [prngClockN_add 16 16]
      exact exec_of_body_ok (prngNonceBody_ok h hfits (genNonce_ok ht hs)) rfl
    · exact genNonce_badTicks ht
    · rw [show data.extractLsb' 0 16 = 0 from h0]
      exact genNonce_zeroSeed ht

end Sys2Proof.Machine
end

section
/-! The successor function and SUC (42_prng.md rules R168, R174). -/

namespace Sys2Proof.Machine

open Sys2Proof Safety

/-- A SUC whose operand fits answers its successor, in every state (R174). -/
theorem exec_suc_of_lt {data : Data48} (s : State) (hfits : data.toNat < 2 ^ 32) :
    exec (.suc data) s = .next (readsAs s (zext48 (sucNonce (data.setWidth 32)))) := by
  refine exec_of_body_ok (t := s) (d := zext48 _) ?_ rfl
  simp only [commandBody, sucBody, operandData32, fromInteger_of_lt hfits, except_bind_ok,
    except_pure]

theorem exec_suc_of_ge {data : Data48} (s : State) (hwide : 2 ^ 32 ≤ data.toNat) :
    exec (.suc data) s = .next (refusedWith s .invalidWidth) := by
  rw [exec_eq_answer]
  simp only [commandBody, sucBody, operandData32, fromInteger_of_ge hwide, except_bind_error]
  rfl

/-- The successor as a 48-bit word: the operand one place down, and the feedback at bit 31 (R168). -/
theorem zext48_sucNonce {data : Data48} (hfits : data.toNat < 2 ^ 32) :
    zext48 (sucNonce (data.setWidth 32))
      = (data >>> 1) ||| (if data.getLsbD 31 ^^ (data.getLsbD 29 ^^
          (data.getLsbD 28 ^^ data.getLsbD 26)) then 0x80000000 else 0) := by
  have hbit : ∀ i, 32 ≤ i → data.getLsbD i = false := fun i hi => by
    rw [← BitVec.testBit_toNat]
    exact Nat.testBit_lt_two_pow (hfits.trans_le (Nat.pow_le_pow_right (by decide) hi))
  have hfed : ∀ (b : Bool) i, BitVec.getLsbD (if b then 0x80000000 else 0 : Data48) i
      = (b && decide (i = 31)) := fun b i => by
    rw [show (0x80000000 : Data48) = BitVec.twoPow 48 31 from rfl]
    cases b <;> simp [BitVec.getLsbD_twoPow, eq_comm]
  apply BitVec.eq_of_getLsbD_eq
  intro i hi
  rw [zext48, BitVec.getLsbD_setWidth, BitVec.getLsbD_or, BitVec.getLsbD_ushiftRight, hfed]
  rcases Nat.lt_trichotomy i 31 with h | rfl | h
  · rw [sucNonce_getLsbD _ i (by omega), if_neg (by omega), BitVec.getLsbD_setWidth]
    simp [hi, show i + 1 < 32 by omega, show i ≠ 31 by omega, Nat.add_comm 1 i]
  · rw [sucNonce_getLsbD _ 31 (by omega), if_pos rfl, sucFeedback_eq, hbit (1 + 31) (by omega)]
    simp only [BitVec.getLsbD_setWidth, decide_true, Bool.true_and, Bool.false_or, Bool.and_true,
      Nat.reduceLT]
  · simp [hbit (1 + i) (by omega), show i ≠ 31 by omega,
      BitVec.getLsbD_of_ge (sucNonce _) i (by omega)]

/-- Two nonces have one successor exactly when they agree above bit 0 (R168). -/
theorem sucNonce_eq_iff {m n : Nonce32} :
    sucNonce m = sucNonce n ↔ ∀ i, 1 ≤ i → i < 32 → m.getLsbD i = n.getLsbD i := by
  constructor
  · intro h i hlo hhi
    obtain ⟨j, rfl⟩ : ∃ j, i = j + 1 := ⟨i - 1, by omega⟩
    have hbit := congrArg (BitVec.getLsbD · j) h
    simpa only [sucNonce_getLsbD _ j (by omega), show j ≠ 31 by omega, if_false] using hbit
  · intro h
    apply BitVec.eq_of_getLsbD_eq
    intro i hi
    rw [sucNonce_getLsbD m i hi, sucNonce_getLsbD n i hi]
    split
    · rw [sucFeedback_eq, sucFeedback_eq, h 31 (by omega) (by omega), h 29 (by omega) (by omega),
        h 28 (by omega) (by omega), h 26 (by omega) (by omega)]
    · exact h (i + 1) (by omega) (by omega)

/-- Two words agree above bit 0 exactly when they are equal or differ in bit 0 alone. -/
theorem eq_or_eq_xor_one_iff {w : Nat} {m n : BitVec w} :
    m = n ∨ m = n ^^^ 1#w ↔ ∀ i, 1 ≤ i → i < w → m.getLsbD i = n.getLsbD i := by
  constructor
  · rintro (rfl | rfl) i hlo hhi
    · rfl
    · simp [show i ≠ 0 by omega]
  · intro h
    by_cases h0 : m.getLsbD 0 = n.getLsbD 0
    · left
      apply BitVec.eq_of_getLsbD_eq
      intro i hi
      rcases Nat.eq_zero_or_pos i with rfl | hpos
      · exact h0
      · exact h i hpos hi
    · right
      apply BitVec.eq_of_getLsbD_eq
      intro i hi
      rcases Nat.eq_zero_or_pos i with rfl | hpos
      · simpa [hi] using Bool.eq_not.2 h0
      · simpa [show i ≠ 0 by omega] using h i hpos hi

/-- Settles O26: the successor in integer bits (`zext48_sucNonce`), and what it forgets
(`sucNonce_eq_iff`). -/
theorem sucCommandShiftsTheNonce : Obligations.SucCommandShiftsTheNonce := by
  refine ⟨?_, fun data s => ⟨fun hfits => ?_, exec_suc_of_ge s⟩, fun m n => ?_⟩
  · have hrow : rowOf 0x24
        = some ⟨0x24, 0x2400000000000000, 0xFFFF000000000000, fun _ _ _ d => .suc d⟩ := rfl
    exact encodes_of_row 0x24 hrow rfl (fun _ => rfl) (fun _ => rfl)
  · rw [exec_suc_of_lt s hfits, zext48_sucNonce hfits]
  · exact sucNonce_eq_iff.trans eq_or_eq_xor_one_iff.symm

end Sys2Proof.Machine
end

section
/-! How engine commands act (43_engine.md rules R194 to R203): outside a handshake each is an
operation on its endpoint's engine, the same for both endpoints. -/

namespace Sys2Proof.Machine

open Sys2Proof Safety

/-- What an engine command makes of an engine: an error, or the engine it leaves and its answer. -/
abbrev EngineOp := Engine → Except ErrCode (Engine × Data48)

namespace EngineOp

/-- ENG_RESET's operation (R199). -/
def reset : EngineOp := fun _ => .ok (Engine.cleared, 0)

/-- ENG_LOAD's operation (R200). -/
def load (x : Data48) : EngineOp := fun e => do
  let e' ← e.load x
  return (e', 0)

/-- ENG_MIX's operation (R201). -/
def mix (x : Data48) : EngineOp := fun e => do
  let e' ← e.mixIn x
  return (e', 0)

/-- ENG_CLK's operation (R202). -/
def clk (iv ib : Bool) : EngineOp := fun e => do
  let input ← operandInputBit iv ib
  require e.primed .notPrimed
  return (e.withReg (engClock e.reg input).1, bitData (engClock e.reg input).2)

/-- ENG_KS's operation (R203). -/
def ks (n : Data48) : EngineOp := fun e => do
  let count ← operandCount n
  require e.primed .notPrimed
  return (e.withReg (keystream e.reg count).1, (keystream e.reg count).2)

/-- The operation taken on the engine of an endpoint. -/
def onEndpoint (op : EngineOp) (ep : Endpoint) (s : State) : Result := do
  let r ← op (s.eng.get ep)
  return (s.setEng ep r.1, r.2)

end EngineOp

/-- The command `f` is the operation `op` on its endpoint's engine, behind the gate (R221). -/
structure ActsOnEngine (f : Endpoint → Instr) (op : EngineOp) : Prop where
  direct : ∀ ep, classOf (f ep) = .direct
  body : ∀ ep s, Outside s → commandBody (f ep) s = op.onEndpoint ep s

theorem engReset_actsOnEngine : ActsOnEngine .engReset .reset where
  direct _ := rfl
  body ep s h := by simp only [commandBody, engResetBody, gate_outside h, except_bind_ok]; rfl

theorem engLoad_actsOnEngine (x : Data48) : ActsOnEngine (.engLoad · x) (.load x) where
  direct _ := rfl
  body ep s h := by
    simp only [commandBody, engLoadBody, gate_outside h, EngineOp.onEndpoint, EngineOp.load,
      bind_assoc, except_bind_ok, except_pure, operandData48]

theorem engMix_actsOnEngine (x : Data48) : ActsOnEngine (.engMix · x) (.mix x) where
  direct _ := rfl
  body ep s h := by
    simp only [commandBody, engMixBody, gate_outside h, EngineOp.onEndpoint, EngineOp.mix,
      bind_assoc, except_bind_ok, except_pure, operandData48]

theorem engClk_actsOnEngine (iv ib : Bool) : ActsOnEngine (.engClk · iv ib) (.clk iv ib) where
  direct _ := rfl
  body ep s h := by
    simp only [commandBody, engClkBody, gate_outside h, EngineOp.onEndpoint, EngineOp.clk,
      bind_assoc, except_bind_ok, except_pure]

theorem engKs_actsOnEngine (n : Data48) : ActsOnEngine (.engKs · n) (.ks n) where
  direct _ := rfl
  body ep s h := by
    simp only [commandBody, engKsBody, gate_outside h, EngineOp.onEndpoint, EngineOp.ks,
      bind_assoc, except_bind_ok, except_pure]

/-- Every engine command is an operation on its endpoint's engine. -/
theorem exists_engineOp {f : Endpoint → Instr} (hf : isEngineCommand f) :
    ∃ op, ActsOnEngine f op := by
  rcases hf with rfl | ⟨x, rfl⟩ | ⟨x, rfl⟩ | ⟨iv, ib, rfl⟩ | ⟨n, rfl⟩
  · exact ⟨_, engReset_actsOnEngine⟩
  · exact ⟨_, engLoad_actsOnEngine x⟩
  · exact ⟨_, engMix_actsOnEngine x⟩
  · exact ⟨_, engClk_actsOnEngine iv ib⟩
  · exact ⟨_, engKs_actsOnEngine n⟩

section

variable {f : Endpoint → Instr} {op : EngineOp} {ep : Endpoint} {s : State}

/-- An operation that returns writes its endpoint's engine, and nothing else of the block. -/
theorem exec_engine_of_ok {e : Engine} {d : Data48} (hf : ActsOnEngine f op) (h : Outside s)
    (hop : op (s.eng.get ep) = .ok (e, d)) :
    exec (f ep) s
      = .next { s with eng := s.eng.set ep e, host := answered s.host .ok d } := by
  have hbody : commandBody (f ep) s = .ok (s.setEng ep e, d) := by
    rw [hf.body ep s h, EngineOp.onEndpoint, hop, except_bind_ok, except_pure]
  exact exec_of_body_ok hbody rfl

/-- An operation that raises an error changes nothing of the block (R282, R283). -/
theorem exec_engine_of_error {e : ErrCode} (hf : ActsOnEngine f op) (h : Outside s)
    (hop : op (s.eng.get ep) = .error e) : exec (f ep) s = .next (refusedWith s e) := by
  refine exec_direct_of_error (hf.direct ep) h ?_
  rw [hf.body ep s h, EngineOp.onEndpoint, hop, except_bind_error]

end

end Sys2Proof.Machine
end

section
/-! Two engines that start equal and receive the same operations stay equal and answer alike
(43_engine.md rule R197). -/

namespace Sys2Proof.Machine

open Sys2Proof Safety

/-- The engines are equal, and free for direct commands. -/
def Synchronized (s : State) : Prop := Outside s ∧ s.eng.tag = s.eng.reader

/-- An engine command given to both endpoints: each engine takes the same operation from the same
value, so both return the same or both raise the same. -/
theorem synchronized_step {f : Endpoint → Instr} {s : State} (hf : isEngineCommand f)
    (hs : Synchronized s) :
    ∃ u t r, exec (f .tag) s = .next u ∧ exec (f .reader) u = .next t ∧ Synchronized t
      ∧ t.host.responses = s.host.responses ++ [r, r] := by
  obtain ⟨op, hop⟩ := exists_engineOp hf
  obtain ⟨hout, heq⟩ := hs
  have hsame : op s.eng.reader = op s.eng.tag := by rw [heq]
  cases hr : op s.eng.tag with
  | ok p =>
    obtain ⟨e, d⟩ := p
    refine ⟨_, _, ⟨.ok, d⟩, exec_engine_of_ok (ep := .tag) hop hout hr,
      exec_engine_of_ok (ep := .reader) hop hout (hsame.trans hr), ⟨hout, rfl⟩,
      List.append_assoc ..⟩
  | error e =>
    refine ⟨_, _, ⟨e, 0⟩, exec_engine_of_error (ep := .tag) hop hout hr,
      exec_engine_of_error (ep := .reader) hop hout (hsame.trans hr), ⟨hout, heq⟩,
      List.append_assoc ..⟩

/-- A command that is answered is run, and then the rest. -/
theorem runCommands_cons_of_next {i : Instr} {is : List Instr} {s t : State}
    (h : exec i s = .next t) : runCommands (i :: is) s = runCommands is t := by
  simp only [runCommands, h]

/-- Settles O37, by induction on the commands with `synchronized_step` for each. -/
theorem synchronizedEnginesStaySynchronized :
    Obligations.SynchronizedEnginesStaySynchronized := by
  intro fs hfs s hout heq
  induction fs generalizing s with
  | nil => exact ⟨s, [], rfl, heq, (List.append_nil _).symm⟩
  | cons f fs ih =>
    rw [List.forall_mem_cons] at hfs
    obtain ⟨u, t, r, htag, hreader, ⟨htout, hteq⟩, hresp⟩ := synchronized_step hfs.1 ⟨hout, heq⟩
    obtain ⟨t', rs, hrun, heq', hresp'⟩ := ih hfs.2 t htout hteq
    refine ⟨t', r :: rs, ?_, heq', ?_⟩
    · rw [List.flatMap_cons, List.cons_append, List.cons_append, List.nil_append,
        runCommands_cons_of_next htag, runCommands_cons_of_next hreader, hrun]
    · rw [hresp', hresp, List.flatMap_cons, List.append_assoc]

end Sys2Proof.Machine
end

section
/-! The engine's clock and the keystream (43_engine.md rules R191 to R193, R198). -/

namespace Sys2Proof.Machine

open Sys2Proof

/-- Below the top, a clock moves every integer bit down one place (R192). -/
theorem engClock_getLsbD_of_lt (v : Reg48) (input : Option Bool) {i : Nat} (hi : i < 47) :
    (engClock v input).1.getLsbD i = v.getLsbD (i + 1) := by
  rw [engClock_getLsbD v input i (by omega), if_neg (by omega)]

/-- Settles O27: the top bit is the feedback and the input, in integer bits by `engFeedback_eq`. -/
theorem engineClockFeedsBackItsEighteenTaps :
    Obligations.EngineClockFeedsBackItsEighteenTaps := by
  intro v input
  refine ⟨?_, fun i hi => engClock_getLsbD_of_lt v input hi, engClock_snd v input⟩
  rw [engClock_getLsbD v input 47 (by omega), if_pos rfl, engFeedback_eq]
  cases input <;> simp only [Bool.xor_assoc, Option.getD_none, Option.getD_some]

/-- The all-zero register is a fixed point of the clock, with keystream bit 0 (R198). -/
@[simp] theorem engClock_zero : engClock 0 none = (0, false) := by decide

theorem keystreamFrom_zero_zero (n k : Nat) : keystreamFrom n k 0 0 = (0, 0) := by
  induction n generalizing k with
  | zero => rfl
  | succ n ih =>
    have hbit : (0 : Data48) ||| bitData false <<< k = 0 := by simp [bitData]
    rw [keystreamFrom_succ, engClock_zero, hbit, ih]

/-- Two registers clock alike exactly when they agree above bit 0 (R198). -/
theorem engClock_eq_iff {v w : Reg48} :
    engClock v none = engClock w none ↔ ∀ i, 1 ≤ i → i < 48 → v.getLsbD i = w.getLsbD i := by
  refine ⟨fun h i hlo hhi => ?_, fun h => engClock_congr h none⟩
  obtain ⟨j, rfl⟩ : ∃ j, i = j + 1 := ⟨i - 1, by omega⟩
  rw [← engClock_getLsbD_of_lt v none (by omega), h, engClock_getLsbD_of_lt w none (by omega)]

/-- A clock puts the feedback at index 0 (R192). -/
theorem idx_engClock_zero (v : Reg48) : idx (engClock v none).1 0 = engFeedback v :=
  (idx_shiftIn_zero v _ (by decide)).trans (Bool.xor_false _)

/-- `n` clocks move every index up by `n` (R192). -/
theorem idx_engClockN_add (n : Nat) (v : Reg48) {i : Nat} (hi : i + n < 48) :
    idx (engClockN n v) (i + n) = idx v i := by
  induction n generalizing i v with
  | zero => rfl
  | succ n ih =>
    rw [engClockN_succ', ← Nat.add_assoc, idx_engClock_succ _ _ (by omega), ih v (by omega)]

/-- After 48 clocks index `j` holds what the clock `48 - j` fed back, moved up by the `j` clocks
after it (R198). -/
theorem idx_engClockN_48 (v : Reg48) {j : Nat} (hj : j < 48) :
    idx (engClockN 48 v) j = engFeedback (engClockN (47 - j) v) := by
  have hclocks : engClockN 48 v = engClockN j (engClockN (47 - j + 1) v) := by
    rw [← engClockN_add]
    congr 1
    omega
  have hmoved := idx_engClockN_add j (engClockN (47 - j + 1) v) (i := 0) (by omega)
  rw [Nat.zero_add] at hmoved
  rw [hclocks, hmoved, engClockN_succ', idx_engClock_zero]

/-- Settles O28: the zero register by its clock, the forgotten bit by `engClock_eq_iff`, the 48
feedback bits by `idx_engClockN_48`. -/
theorem engineClockForgetsExactlyTheOldestBit :
    Obligations.EngineClockForgetsExactlyTheOldestBit := by
  refine ⟨⟨engClock_zero, fun n => keystreamFrom_zero_zero n 0⟩,
    fun v w => engClock_eq_iff.trans eq_or_eq_xor_one_iff.symm, fun v j hj => ?_⟩
  rw [keystream_fst, keystream_fst, idx_engClockN_48 v hj]

/-- Settles O29: the register by one clock more, the word bit by bit by `keystream_getLsbD`. -/
theorem keystreamBitIsTheFilterOfItsClock : Obligations.KeystreamBitIsTheFilterOfItsClock := by
  intro v n
  refine ⟨rfl, ?_, fun k hk => ?_⟩
  · rw [keystream_fst, keystream_fst, engClockN_succ']
  · rw [keystream_getLsbD v n k hk, keystream_fst, engClock_snd, engClockN_succ']

/-- The word of `m + n` bits: the bits below `m` are the first word's, those from `m` on the
second's (R62, R193). -/
theorem keystream_add_snd (v : Reg48) (m n : Nat) :
    (keystream v (m + n)).2
      = (keystream v m).2 ||| (keystream (engClockN m v) n).2 <<< m := by
  apply BitVec.eq_of_getLsbD_eq
  intro i hi
  rw [BitVec.getLsbD_or, BitVec.getLsbD_shiftLeft, keystream_getLsbD _ _ i hi,
    keystream_getLsbD _ _ i hi, keystream_getLsbD _ _ (i - m) (by omega)]
  rcases Nat.lt_or_ge i m with h | h
  · simp [h, show i < m + n by omega]
  · have hclocks : engClockN (i - m + 1) (engClockN m v) = engClockN (i + 1) v := by
      rw [← engClockN_add]
      congr 1
      omega
    have hcount : i - m < n ↔ i < m + n := by omega
    simp [hclocks, hcount, hi, Nat.not_lt.mpr h]

/-- Settles O30: the register by `engClockN_add`, the word by `keystream_add_snd`. -/
theorem keystreamContinuesWhereItStopped : Obligations.KeystreamContinuesWhereItStopped := by
  intro v m n
  ext1
  · simp only [keystream_fst, engClockN_add]
  · simp only [keystream_fst, keystream_add_snd]

end Sys2Proof.Machine
end

section
/-! The engine commands (43_engine.md rules R199 to R203): what the operation of each comes to. -/

namespace Sys2Proof.Machine

open Sys2Proof Safety

/-- A row that reads at most `EP` and `DATA`, whose commands are all well-formed, encodes its
command (R85). -/
theorem encodes_of_fields {matchBits mask : CmdWord} {make : Endpoint → Data48 → Instr}
    (op : BitVec 8) (hr : rowOf op = some ⟨op, matchBits, mask, fun ep _ _ d => make ep d⟩)
    (ho : opField matchBits = op) (hm : ∀ ep d, (make ep d).wf = true) :
    Encodes matchBits mask make :=
  encodes_of_row op hr ho (fun _ => hm _ _) (fun _ => rfl)

/-- Settles O31: ENG_RESET is an operation that always returns. -/
theorem engResetClearsTheEngine : Obligations.EngResetClearsTheEngine :=
  ⟨encodes_of_fields 0x10 rfl rfl fun _ _ => rfl,
    fun _ _ => ⟨fun h => exec_engine_of_ok engReset_actsOnEngine h rfl,
      fun h => exec_direct_of_handshake rfl h rfl⟩⟩

section

variable {e : Engine} {x : Data48}

theorem engineOp_load_ok (hp : e.primed = false) : EngineOp.load x e = .ok (⟨x, true⟩, 0) := by
  rw [EngineOp.load, load_eq_ok.2 ⟨hp, rfl⟩, except_bind_ok, except_pure]

theorem engineOp_load_primed (hp : e.primed = true) :
    EngineOp.load x e = .error .alreadyPrimed := by
  simp [EngineOp.load, Engine.load, hp]

theorem engineOp_mix_ok (hp : e.primed = true) :
    EngineOp.mix x e = .ok (⟨e.reg ^^^ x, true⟩, 0) := by
  rw [EngineOp.mix, mixIn_eq_ok.2 ⟨hp, rfl⟩, except_bind_ok, except_pure, Engine.withReg, hp]

theorem engineOp_mix_unprimed (hp : e.primed = false) :
    EngineOp.mix x e = .error .notPrimed := by
  simp [EngineOp.mix, Engine.mixIn, hp]

end

/-- Settles O32: each outcome of ENG_LOAD's operation is answered as that of a direct command. -/
theorem engLoadPrimesAnUnprimedEngine : Obligations.EngLoadPrimesAnUnprimedEngine :=
  ⟨encodes_of_fields 0x11 rfl rfl fun _ _ => rfl,
    fun _ x _ => ⟨
      fun h hp => exec_engine_of_ok (engLoad_actsOnEngine x) h (engineOp_load_ok hp),
      fun h => exec_direct_of_handshake rfl h rfl,
      fun h hp => exec_engine_of_error (engLoad_actsOnEngine x) h (engineOp_load_primed hp)⟩⟩

/-- Settles O33: each outcome of ENG_MIX's operation is answered as that of a direct command. -/
theorem engMixXorsIntoAPrimedEngine : Obligations.EngMixXorsIntoAPrimedEngine :=
  ⟨encodes_of_fields 0x12 rfl rfl fun _ _ => rfl,
    fun _ x _ => ⟨
      fun h hp => exec_engine_of_ok (engMix_actsOnEngine x) h (engineOp_mix_ok hp),
      fun h => exec_direct_of_handshake rfl h rfl,
      fun h hp => exec_engine_of_error (engMix_actsOnEngine x) h (engineOp_mix_unprimed hp)⟩⟩

/-! ### ENG_CLK -/

/-- The legal input fields: no input, or the bit `IB` (R83). -/
theorem operandInputBit_of_legal {iv ib : Bool} (hlegal : iv = true ∨ ib = false) :
    operandInputBit iv ib = .ok (if iv then some ib else none) := by
  rcases hlegal with rfl | rfl
  · rfl
  · cases iv <;> rfl

section

variable {e : Engine} {iv ib : Bool}

theorem engineOp_clk_ok (hlegal : iv = true ∨ ib = false) (hp : e.primed = true) :
    EngineOp.clk iv ib e
      = .ok (⟨(engClock e.reg (if iv then some ib else none)).1, true⟩,
          bitData (engClock e.reg (if iv then some ib else none)).2) := by
  simp only [EngineOp.clk, operandInputBit_of_legal hlegal, hp, require_true, except_bind_ok,
    except_pure, Engine.withReg]

theorem engineOp_clk_unprimed (hlegal : iv = true ∨ ib = false) (hp : e.primed = false) :
    EngineOp.clk iv ib e = .error .notPrimed := by
  simp only [EngineOp.clk, operandInputBit_of_legal hlegal, hp, require_false, except_bind_ok,
    except_bind_error]

end

/-- With legal input fields ENG_CLK meets the gate first (R83, R284). -/
theorem exec_engClk_handshake {ep : Endpoint} {iv ib : Bool} {s : State}
    (hlegal : iv = true ∨ ib = false) (h : InHandshake s) :
    exec (.engClk ep iv ib) s = .next (failsWith s .protocolViolation) := by
  have hbody : commandBody (.engClk ep iv ib) s = .error .protocolViolation := by
    simp only [commandBody, engClkBody, operandInputBit_of_legal hlegal, gate_handshake h,
      except_bind_ok, except_bind_error]
  rw [exec_eq_answer, hbody, answer_error]
  exact congrArg _ (raiseError_direct_handshake h)

/-- The ill-formed term is answered in every state, before the gate (R86, R284; log entry 5). -/
theorem exec_engClk_illegal (ep : Endpoint) (s : State) :
    exec (.engClk ep false true) s = .next (refusedWith s .illegalCommand) := by
  have hstays : entersFailed .direct s.fsm.state .illegalCommand = false := by
    simp [entersFailed]
  exact congrArg _ (raiseError_of_not_enters hstays)

/-- The row of ENG_CLK (R83, R85). -/
theorem rowOf_engClk : rowOf 0x13
    = some ⟨0x13, 0x1300000000000000, 0xFF7CFFFFFFFFFFFF, fun ep iv ib _ => .engClk ep iv ib⟩ :=
  rfl

/-- A word ENG_CLK's row matches decodes to it, but for `IV = 0, IB = 1` (R83). -/
theorem decode_engClk {w : CmdWord} (hw : w &&& 0xFF7CFFFFFFFFFFFF = 0x1300000000000000) :
    decode w = if w.getLsbD 49 || !w.getLsbD 48
      then .ok (.engClk (epField w) (w.getLsbD 49) (w.getLsbD 48))
      else .error .inputBitNotValid :=
  decode_of_row 0x13 rowOf_engClk hw

/-- Settles O34: its words by `decode_engClk`, and each outcome of its operation is answered as that
of a direct command. -/
theorem engClkClocksAPrimedEngine : Obligations.EngClkClocksAPrimedEngine := by
  constructor
  · refine fun w => ⟨fun hw => ⟨fun hlegal => ?_, fun hiv hib => ?_⟩, fun hop hw => ?_⟩
    · rw [decode_engClk hw, if_pos (by simpa using hlegal)]
      rfl
    · exact answeredIllegal_of_error ((decode_engClk hw).trans (if_neg (by rw [hiv, hib]; decide)))
    · obtain ⟨e, he⟩ := decode_of_mismatch 0x13 rowOf_engClk hop hw
      exact answeredIllegal_of_error he
  · intro ep iv ib s
    refine ⟨fun hlegal h hp => ?_, exec_engClk_handshake, fun hlegal h hp => ?_, ?_⟩
    · rw [← bitData_eq_ite]
      exact exec_engine_of_ok (engClk_actsOnEngine iv ib) h (engineOp_clk_ok hlegal hp)
    · exact exec_engine_of_error (engClk_actsOnEngine iv ib) h (engineOp_clk_unprimed hlegal hp)
    · rintro rfl rfl
      exact exec_engClk_illegal ep s

/-! ### ENG_KS -/

section

variable {e : Engine} {n : Data48}

theorem engineOp_ks_ok (hn : n.toNat ≤ 48) (hp : e.primed = true) :
    EngineOp.ks n e
      = .ok (⟨(keystream e.reg n.toNat).1, true⟩, (keystream e.reg n.toNat).2) := by
  simp only [EngineOp.ks, operandCount_of_le hn, hp, require_true, except_bind_ok, except_pure,
    Engine.withReg]

theorem engineOp_ks_wide (hn : 48 < n.toNat) : EngineOp.ks n e = .error .invalidWidth := by
  simp only [EngineOp.ks, operandCount_of_gt hn, except_bind_error]

theorem engineOp_ks_unprimed (hn : n.toNat ≤ 48) (hp : e.primed = false) :
    EngineOp.ks n e = .error .notPrimed := by
  simp only [EngineOp.ks, operandCount_of_le hn, hp, require_false, except_bind_ok,
    except_bind_error]

end

/-- Settles O35: each outcome of ENG_KS's operation is answered as that of a direct command. -/
theorem engKsExtractsKeystream : Obligations.EngKsExtractsKeystream :=
  ⟨encodes_of_fields 0x14 rfl rfl fun _ _ => rfl,
    fun _ n _ => ⟨
      fun h hn hp => exec_engine_of_ok (engKs_actsOnEngine n) h (engineOp_ks_ok hn hp),
      fun h => exec_direct_of_handshake rfl h rfl,
      fun h hn => exec_engine_of_error (engKs_actsOnEngine n) h (engineOp_ks_wide hn),
      fun h hn hp =>
        exec_engine_of_error (engKs_actsOnEngine n) h (engineOp_ks_unprimed hn hp)⟩⟩

end Sys2Proof.Machine
end

section
/-! The read commands and NOP (20_memory.md rule R67): pseudocode that returns the state it is
given. -/

namespace Sys2Proof.Machine

open Sys2Proof Safety

/-- A command whose pseudocode reads only is answered with what it reads, and changes nothing
(R67). -/
theorem exec_of_reads {i : Instr} {s : State} {d : Data48}
    (hb : commandBody i s = returnData s d) : exec i s = .next (readsAs s d) :=
  exec_of_body_ok hb rfl

/-- Settles O47: each row reads at most `EP`, and each command's pseudocode is one `returnData`. -/
theorem readCommandsAnswerAndChangeNothing : Obligations.ReadCommandsAnswerAndChangeNothing :=
  ⟨⟨encodes_of_fields 0x00 rfl rfl fun _ _ => rfl,
      encodes_of_fields 0x15 rfl rfl fun _ _ => rfl,
      encodes_of_fields 0x23 rfl rfl fun _ _ => rfl,
      encodes_of_fields 0x61 rfl rfl fun _ _ => rfl,
      encodes_of_fields 0x62 rfl rfl fun _ _ => rfl,
      encodes_of_fields 0x63 rfl rfl fun _ _ => rfl,
      encodes_of_fields 0x64 rfl rfl fun _ _ => rfl⟩,
    fun _ _ => ⟨exec_of_reads rfl, exec_of_reads rfl, exec_of_reads rfl, exec_of_reads rfl,
      exec_of_reads rfl, exec_of_reads rfl, exec_of_reads rfl⟩⟩

end Sys2Proof.Machine
end

section
/-! What a command can do to the state machine (44_auth_fsm.md rules R220, R221, R288): a transition
moves it one edge forward, a failure entry ends it, SESSION_NEW starts it again. -/

namespace Sys2Proof.Machine

open Sys2Proof Safety

namespace State

variable (s : State) (c : CommandClass) (e : ErrCode)

@[simp] theorem raiseError_cfg : (s.raiseError c e).cfg = s.cfg := by
  unfold raiseError; split <;> rfl

@[simp] theorem raiseError_lat : (s.raiseError c e).lat = s.lat := by
  unfold raiseError; split <;> rfl

end State

theorem not_terminal_of_state {s : State} {st : FsmState} (hs : s.fsm.state = st)
    (h : st.terminal = false) : ¬ Terminal s := by
  rw [terminal_iff, hs, h]
  exact Bool.false_ne_true

/-- No error enters `Failed` from a terminal state (R283). -/
theorem entersFailed_terminal {st : FsmState} (h : st.terminal = true) (c : CommandClass)
    (e : ErrCode) : entersFailed c st e = false := by
  cases st <;> simp only [FsmState.terminal, reduceCtorEq] at h <;> cases c <;> rfl

/-- An error in a terminal state changes no state of the block (R282, R283). -/
theorem raiseError_terminal {s : State} (h : Terminal s) (c : CommandClass) (e : ErrCode) :
    s.raiseError c e = refusedWith s e :=
  raiseError_of_not_enters (entersFailed_terminal (terminal_iff.1 h) c e)

/-- SESSION_NEW raises nothing, so no failure entry is its own (R227, R283). -/
theorem ne_sessionNew_of_entersFailed {i : Instr} {st : FsmState} {e : ErrCode}
    (h : entersFailed (classOf i) st e = true) : i ≠ .sessionNew := by
  rintro rfl
  simp [classOf, entersFailed] at h

/-- One edge of R220's table forward. -/
def MovesForward (s t : State) : Prop :=
  (s.fsm.state = .idle ∧ t.fsm.state = .nonceIssued)
    ∨ (s.fsm.state = .nonceIssued ∧ t.fsm.state = .challengeSent)
    ∨ (s.fsm.state = .challengeSent ∧ t.fsm.state = .responseVerified)
    ∨ (s.fsm.state = .responseVerified ∧ t.fsm.state = .authenticated)

theorem not_terminal_of_movesForward {s t : State} (h : MovesForward s t) : ¬ Terminal s := by
  rcases h with ⟨h, -⟩ | ⟨h, -⟩ | ⟨h, -⟩ | ⟨h, -⟩ <;> exact not_terminal_of_state h rfl

/-- The only command of the class `new` is SESSION_NEW, and of the class `step` AUTH_STEP (R221). -/
theorem eq_sessionNew_of_classOf {i : Instr} (h : classOf i = .new) : i = .sessionNew := by
  cases i <;> simp_all [classOf]

theorem eq_authStep_of_classOf {i : Instr} (h : classOf i = .step) : i = .authStep := by
  cases i <;> simp_all [classOf]

/-- What a command can do to the state machine (R220, R288). -/
theorem exec_fsm_cases {i : Instr} {s t : State} (hx : exec i s = .next t) :
    t.fsm = s.fsm
    ∨ (i = .authStep ∧ MovesForward s t)
    ∨ (¬ Terminal s ∧ t.fsm.state = .failed ∧ i ≠ .sessionNew)
    ∨ (i = .sessionNew ∧ t.fsm = ⟨.idle, .ok⟩) := by
  rcases exec_cases hx with ⟨u, d, hb, rfl⟩ | ⟨e, -, rfl⟩
  · have he := effect_of_body hb
    unfold Effect at he
    cases hc : classOf i <;> simp only [hc] at he
    case pure => rw [he]; exact .inl rfl
    case direct => rw [he.2]; exact .inl rfl
    case config => rw [he.2]; exact .inl rfl
    case wire => rw [he.2]; exact .inl rfl
    case new => rw [he]; exact .inr (.inr (.inr ⟨eq_sessionNew_of_classOf hc, rfl⟩))
    case step => exact .inr (.inl ⟨eq_authStep_of_classOf hc, (transition_fsm he).2⟩)
  · cases hf : entersFailed (classOf i) s.fsm.state e
    · rw [raiseError_of_not_enters hf]
      exact .inl rfl
    · have hlive : ¬ Terminal s := fun h => by
        simp [entersFailed_terminal (terminal_iff.1 h)] at hf
      rw [raiseError_of_enters hf]
      exact .inr (.inr (.inl ⟨hlive, rfl, ne_sessionNew_of_entersFailed hf⟩))

/-- Settles O50: only a reset and a command touch `fsm`, and a command as `exec_fsm_cases` says. -/
theorem stateMachineMovesAlongItsEdges : Obligations.StateMachineMovesAlongItsEdges := by
  intro s t hstep hne
  rcases step_cases hstep with
    ⟨-, rfl⟩ | ⟨hreset, rfl⟩ | ⟨-, rfl⟩ | ⟨-, rfl⟩ | rfl | ⟨i, hi, hx⟩
  case inr.inl => exact .inr (.inr ⟨.inr hreset, rfl⟩)
  case inr.inr.inr.inr.inr =>
    rcases exec_fsm_cases hx with hsame | ⟨rfl, hforward⟩ | ⟨hlive, hfailed, hnew⟩ | ⟨rfl, hidle⟩
    · exact absurd (congrArg Fsm.state hsame) hne
    · exact .inl ⟨hi, hforward⟩
    · exact .inr (.inl ⟨hlive, hfailed, i, hi, hnew⟩)
    · exact .inr (.inr ⟨.inl hi, hidle⟩)
  all_goals exact absurd rfl hne

/-- Settles O51: in handshake the direct and configuration commands do not return, and an error
writes `fsm` only. -/
theorem handshakeOwnsEnginesPrngsAndConfig : Obligations.HandshakeOwnsEnginesPrngsAndConfig := by
  intro i s t hs hx hstep hnew
  have hfsm : t.fsm = s.fsm ∨ t.fsm.state = .failed := by
    rcases exec_fsm_cases hx with hsame | ⟨h, -⟩ | ⟨-, hfailed, -⟩ | ⟨h, -⟩
    · exact .inl hsame
    · exact absurd h hstep
    · exact .inr hfailed
    · exact absurd h hnew
  rcases exec_cases hx with ⟨u, d, hb, rfl⟩ | ⟨e, -, rfl⟩
  · have he := effect_of_body hb
    unfold Effect at he
    cases hc : classOf i <;> simp only [hc, inHandshake_iff.1 hs, reduceCtorEq, false_and] at he
    case pure => subst he; exact ⟨rfl, rfl, rfl, rfl, hfsm⟩
    case new => exact absurd (eq_sessionNew_of_classOf hc) hnew
    case step => exact absurd (eq_authStep_of_classOf hc) hstep
    case wire =>
      rw [he.2] at hfsm ⊢
      exact ⟨rfl, rfl, rfl, rfl, hfsm⟩
  · exact ⟨State.raiseError_eng .., State.raiseError_prng .., State.raiseError_cfg ..,
      State.raiseError_lat .., hfsm⟩

/-- Settles O40: SESSION_NEW always returns, and `exec_fsm_cases` leaves a terminal state nothing
else. -/
theorem sessionNewStartsAFreshSession : Obligations.SessionNewStartsAFreshSession := by
  refine ⟨encodes_of_fields 0x50 rfl rfl fun _ _ => rfl, fun _ => exec_of_body_ok rfl rfl,
    fun i s t hs hx hnew => ?_⟩
  rcases exec_fsm_cases hx with hsame | ⟨-, hforward⟩ | ⟨hlive, -⟩ | ⟨h, -⟩
  · exact hsame
  · exact absurd hs (not_terminal_of_movesForward hforward)
  · exact absurd hs hlive
  · exact absurd h hnew

end Sys2Proof.Machine
end

section
/-! The configuration commands (44_auth_fsm.md rules R223 to R226): each passes the gate, then
checks its operand. -/

namespace Sys2Proof.Machine

open Sys2Proof Safety

/-- A command whose pseudocode raises an error is answered with the error taken (R281 to R283). -/
theorem exec_of_body_error {i : Instr} {s u : State} {e : ErrCode}
    (hb : commandBody i s = .error e) (hu : s.raiseError (classOf i) e = u) :
    exec i s = .next u := by
  rw [exec_eq_answer, hb, answer_error, hu]

/-- A configuration command that passes the gate first enters `Failed` in handshake (R221, R283). -/
theorem exec_config_of_handshake {i : Instr} {s : State} {f : Unit → Result}
    (hc : classOf i = .config) (h : InHandshake s) (hb : commandBody i s = gate s >>= f) :
    exec i s = .next (failsWith s .protocolViolation) := by
  refine exec_of_body_error (e := .protocolViolation) ?_ ?_
  · rw [hb, gate_handshake h, except_bind_error]
  · rw [hc, raiseError_config_handshake h]

/-- An operand error of a configuration command enters `Failed` in `Idle`, and changes no state of
the block in a terminal state (R283). -/
theorem exec_config_of_error {i : Instr} {s : State} {e : ErrCode} (hc : classOf i = .config)
    (hb : Outside s → commandBody i s = .error e) (he : e = .invalidWidth ∨ e = .invalidTickCount) :
    (s.fsm.state = .idle → exec i s = .next (failsWith s e))
    ∧ (Terminal s → exec i s = .next (refusedWith s e)) :=
  ⟨fun h => exec_of_body_error (hb (.inl h)) (hc ▸ raiseError_config_idle h he),
    fun h => exec_of_body_error (hb (outside_of_terminal h)) (raiseError_terminal h _ e)⟩

section

variable {ep : Endpoint} {d : Data48} {s : State}

theorem setUidBody_ok (h : Outside s) (hfits : d.toNat < 2 ^ 32) :
    setUidBody d s = .ok ({ s with cfg := { s.cfg with uid := d.setWidth 32 } }, 0) := by
  simp only [setUidBody, gate_outside h, operandData32, fromInteger_of_lt hfits, except_bind_ok,
    except_pure]

theorem setUidBody_wide (h : Outside s) (hwide : 2 ^ 32 ≤ d.toNat) :
    setUidBody d s = .error .invalidWidth := by
  simp only [setUidBody, gate_outside h, operandData32, fromInteger_of_ge hwide, except_bind_ok,
    except_bind_error]

theorem setKeyBody_ok (h : Outside s) :
    setKeyBody ep d s = .ok ({ s with cfg := { s.cfg with key := s.cfg.key.set ep d } }, 0) := by
  simp only [setKeyBody, gate_outside h, operandData48, except_bind_ok, except_pure]

theorem setSeedBody_ok (h : Outside s) (hfits : d.toNat < 2 ^ 16) :
    setSeedBody ep d s
      = .ok ({ s with cfg := { s.cfg with seed := s.cfg.seed.set ep (d.setWidth 16) } }, 0) := by
  simp only [setSeedBody, gate_outside h, operandData16, fromInteger_of_lt hfits, except_bind_ok,
    except_pure]

theorem setSeedBody_wide (h : Outside s) (hwide : 2 ^ 16 ≤ d.toNat) :
    setSeedBody ep d s = .error .invalidWidth := by
  simp only [setSeedBody, gate_outside h, operandData16, fromInteger_of_ge hwide, except_bind_ok,
    except_bind_error]

/-- Past the gate and the width, SET_TICKS checks the tick count it would store (R226). -/
theorem setTicksBody_of_lt (h : Outside s) (hfits : d.toNat < 2 ^ 16) :
    setTicksBody ep d s = (do
      require (d.toNat % 16 == 0) .invalidTickCount
      return ({ s with
        cfg := { s.cfg with ticks := s.cfg.ticks.set ep (d.setWidth 16) } }, 0)) := by
  simp only [setTicksBody, gate_outside h, operandData16, fromInteger_of_lt hfits, except_bind_ok,
    BitVec.toNat_setWidth, Nat.mod_eq_of_lt hfits, Config.tickUnit]

theorem setTicksBody_ok (h : Outside s) (hfits : d.toNat < 2 ^ 16) (ht : d.toNat % 16 = 0) :
    setTicksBody ep d s
      = .ok ({ s with cfg := { s.cfg with ticks := s.cfg.ticks.set ep (d.setWidth 16) } }, 0) := by
  rw [setTicksBody_of_lt h hfits, beq_iff_eq.2 ht, require_true, except_bind_ok, except_pure]

theorem setTicksBody_badTicks (h : Outside s) (hfits : d.toNat < 2 ^ 16) (ht : d.toNat % 16 ≠ 0) :
    setTicksBody ep d s = .error .invalidTickCount := by
  rw [setTicksBody_of_lt h hfits, beq_eq_false_iff_ne.2 ht, require_false, except_bind_error]

theorem setTicksBody_wide (h : Outside s) (hwide : 2 ^ 16 ≤ d.toNat) :
    setTicksBody ep d s = .error .invalidWidth := by
  simp only [setTicksBody, gate_outside h, operandData16, fromInteger_of_ge hwide, except_bind_ok,
    except_bind_error]

end

/-- Settles O38: each outcome of the three commands' pseudocode is answered as that of a
configuration command. -/
theorem setCommandsWriteTheirRegister : Obligations.SetCommandsWriteTheirRegister := by
  refine ⟨⟨encodes_of_fields 0x40 rfl rfl fun _ _ => rfl,
      encodes_of_fields 0x41 rfl rfl fun _ _ => rfl,
      encodes_of_fields 0x42 rfl rfl fun _ _ => rfl⟩, fun ep d s => ?_⟩
  have huid (hwide : 2 ^ 32 ≤ d.toNat) := exec_config_of_error (i := .setUid d) (s := s) rfl
    (setUidBody_wide · hwide) (.inl rfl)
  have hseed (hwide : 2 ^ 16 ≤ d.toNat) := exec_config_of_error (i := .setSeed ep d) (s := s) rfl
    (setSeedBody_wide · hwide) (.inl rfl)
  refine ⟨fun h => ⟨fun hfits => exec_of_body_ok (setUidBody_ok h hfits) rfl,
      exec_of_body_ok (setKeyBody_ok h) rfl,
      fun hfits => exec_of_body_ok (setSeedBody_ok h hfits) rfl⟩,
    fun h => ⟨exec_config_of_handshake rfl h rfl, exec_config_of_handshake rfl h rfl,
      exec_config_of_handshake rfl h rfl⟩, fun h => ?_, fun h => ?_⟩
  · exact ⟨fun hwide => (huid hwide).1 h, fun hwide => (hseed hwide).1 h⟩
  · exact ⟨fun hwide => (huid hwide).2 h, fun hwide => (hseed hwide).2 h⟩

/-- Settles O39: each outcome of SET_TICKS's pseudocode is answered as that of a configuration
command. -/
theorem setTicksAcceptsMultiplesOfSixteen : Obligations.SetTicksAcceptsMultiplesOfSixteen :=
  ⟨encodes_of_fields 0x43 rfl rfl fun _ _ => rfl,
    fun _ _ _ => ⟨fun h hfits ht => exec_of_body_ok (setTicksBody_ok h hfits ht) rfl,
      fun h => exec_config_of_handshake rfl h rfl,
      fun hwide => exec_config_of_error rfl (setTicksBody_wide · hwide) (.inl rfl),
      fun hfits ht => exec_config_of_error rfl (setTicksBody_badTicks · hfits ht) (.inr rfl)⟩⟩

end Sys2Proof.Machine
end

section
/-! The wire commands (44_auth_fsm.md rules R240 to R244): one pseudocode, whose wire is a
parameter. -/

namespace Sys2Proof.Machine

open Sys2Proof Safety

/-- The command that writes a wire (R241 to R244). -/
def WireName.command : WireName → Data48 → Instr
  | .nt => .wireWrNt
  | .nr => .wireWrNr
  | .ar => .wireWrAr
  | .at_ => .wireWrAt

@[simp] theorem classOf_wireCommand (x : WireName) (d : Data48) :
    classOf (x.command d) = .wire := by
  cases x <;> rfl

@[simp] theorem commandBody_wireCommand (x : WireName) (d : Data48) (s : State) :
    commandBody (x.command d) s = wireWrBody x d s := by
  cases x <;> rfl

/-- Every window is a state before the handshake has ended (R240). -/
theorem not_terminal_of_window {x : WireName} {s : State} (hx : s.fsm.state = x.window) :
    ¬ Terminal s :=
  not_terminal_of_state hx (by cases x <;> rfl)

section

variable {x : WireName} {d : Data48} {s : State}

theorem wireWrBody_ok (hx : s.fsm.state = x.window) (hfits : d.toNat < 2 ^ 32) :
    wireWrBody x d s = .ok ({ s with wire := s.wire.write x (d.setWidth 32) }, 0) := by
  simp only [wireWrBody, beq_iff_eq.2 hx, operandData32, fromInteger_of_lt hfits, require_true,
    except_bind_ok, except_pure]

theorem wireWrBody_wide (hx : s.fsm.state = x.window) (hwide : 2 ^ 32 ≤ d.toNat) :
    wireWrBody x d s = .error .invalidWidth := by
  simp only [wireWrBody, beq_iff_eq.2 hx, operandData32, fromInteger_of_ge hwide, require_true,
    except_bind_ok, except_bind_error]

theorem wireWrBody_outside (hx : s.fsm.state ≠ x.window) :
    wireWrBody x d s = .error .protocolViolation := by
  simp only [wireWrBody, beq_eq_false_iff_ne.2 hx, require_false, except_bind_error]

/-- In its window a wire command writes the wire and nothing else (R240). -/
theorem exec_wire_ok (hfits : d.toNat < 2 ^ 32) (hx : s.fsm.state = x.window) :
    exec (x.command d) s = .next { s with
      wire := s.wire.write x (d.setWidth 32), host := answered s.host .ok 0 } :=
  exec_of_body_ok ((commandBody_wireCommand x d s).trans (wireWrBody_ok hx hfits)) rfl

theorem exec_wire_of_error {e : ErrCode} (hlive : ¬ Terminal s) (hb : wireWrBody x d s = .error e)
    (he : e = .protocolViolation ∨ e = .invalidWidth) :
    exec (x.command d) s = .next (failsWith s e) :=
  exec_of_body_error ((commandBody_wireCommand x d s).trans hb)
    (classOf_wireCommand x d ▸ raiseError_wire hlive he)

theorem exec_wire_wide (hwide : 2 ^ 32 ≤ d.toNat) (hx : s.fsm.state = x.window) :
    exec (x.command d) s = .next (failsWith s .invalidWidth) :=
  exec_wire_of_error (not_terminal_of_window hx) (wireWrBody_wide hx hwide) (.inr rfl)

theorem exec_wire_outside (hlive : ¬ Terminal s) (hx : s.fsm.state ≠ x.window) :
    exec (x.command d) s = .next (failsWith s .protocolViolation) :=
  exec_wire_of_error hlive (wireWrBody_outside hx) (.inl rfl)

theorem exec_wire_terminal (x : WireName) (h : Terminal s) :
    exec (x.command d) s = .next (refusedWith s .protocolViolation) :=
  exec_of_body_error ((commandBody_wireCommand x d s).trans
    (wireWrBody_outside fun hx => not_terminal_of_window hx h)) (raiseError_terminal h _ _)

end

/-- Settles O46: the four outcomes of a wire command, each for the four wires. -/
theorem wireCommandsReplaceTheValueInFlight : Obligations.WireCommandsReplaceTheValueInFlight :=
  ⟨⟨encodes_of_fields 0x58 rfl rfl fun _ _ => rfl,
      encodes_of_fields 0x59 rfl rfl fun _ _ => rfl,
      encodes_of_fields 0x5A rfl rfl fun _ _ => rfl,
      encodes_of_fields 0x5B rfl rfl fun _ _ => rfl⟩,
    fun _ _ => ⟨
      fun hfits => ⟨exec_wire_ok (x := .nt) hfits,
        fun h => ⟨exec_wire_ok (x := .nr) hfits h, exec_wire_ok (x := .ar) hfits h⟩,
        exec_wire_ok (x := .at_) hfits⟩,
      fun hwide => ⟨exec_wire_wide (x := .nt) hwide,
        fun h => ⟨exec_wire_wide (x := .nr) hwide h, exec_wire_wide (x := .ar) hwide h⟩,
        exec_wire_wide (x := .at_) hwide⟩,
      fun hlive => ⟨exec_wire_outside (x := .nt) hlive,
        fun h => ⟨exec_wire_outside (x := .nr) hlive h, exec_wire_outside (x := .ar) hlive h⟩,
        exec_wire_outside (x := .at_) hlive⟩,
      fun h => ⟨exec_wire_terminal .nt h, exec_wire_terminal .nr h, exec_wire_terminal .ar h,
        exec_wire_terminal .at_ h⟩⟩⟩

end Sys2Proof.Machine
end

section
/-! AUTH_STEP (44_auth_fsm.md rules R228 to R232): what each transition comes to, and how it is
answered. -/

namespace Sys2Proof.Machine

open Sys2Proof Safety

/-- A transition that returns is answered `OK` with the new state's code (R228). -/
theorem exec_authStep_of_ok {s t : State} (h : transition s = .ok t) :
    exec .authStep s = .next { t with host := answered t.host .ok t.fsm.state.data } :=
  exec_of_body_ok (authStepBody_eq_ok.2 ⟨h, rfl⟩) rfl

/-- A transition's error enters `Failed` before the handshake has ended (R283). -/
theorem exec_authStep_of_error {s : State} {e : ErrCode} (hlive : ¬ Terminal s)
    (h : transition s = .error e) : exec .authStep s = .next (failsWith s e) := by
  refine exec_of_body_error ?_ (raiseError_step hlive e)
  rw [commandBody, authStepBody, h, except_bind_error]

/-- Settles O45: a terminal state has no transition, and an error there changes nothing. -/
theorem authStepInATerminalStateIsRefused : Obligations.AuthStepInATerminalStateIsRefused := by
  refine ⟨encodes_of_fields 0x51 rfl rfl fun _ _ => rfl, fun s h => ?_⟩
  have hnone : transition s = .error .protocolViolation := by
    rcases h with h | h <;> simp only [transition, h]
  refine exec_of_body_error ?_ (raiseError_terminal h _ _)
  rw [commandBody, authStepBody, hnone, except_bind_error]

section

variable {s : State}

theorem transition_of_idle (h : s.fsm.state = .idle) : transition s = transitionT1 s := by
  simp only [transition, h]

theorem transition_of_nonceIssued (h : s.fsm.state = .nonceIssued) :
    transition s = transitionT2 s := by
  simp only [transition, h]

theorem transition_of_challengeSent (h : s.fsm.state = .challengeSent) :
    transition s = transitionT3 s := by
  simp only [transition, h]

theorem transition_of_responseVerified (h : s.fsm.state = .responseVerified) :
    transition s = transitionT4 s := by
  simp only [transition, h]

end

/-! ### T1 -/

/-- The state T1 leaves with the nonce `nt` and the PRNG's terminal state `term` (R229). -/
def afterT1 (s : State) (nt : Nonce32) (term : Reg16) : State :=
  { s with
    prng := { s.prng with tag := ⟨term⟩ }
    lat := { s.lat with tagNt := nt }
    wire := { s.wire with nt := nt }
    fsm := { s.fsm with state := .nonceIssued } }

section

variable {s : State}

theorem transitionT1_ok {nt : Nonce32} {term : Reg16}
    (hgen : genNonce s.cfg.seed.tag s.cfg.ticks.tag = .ok (nt, term)) :
    transitionT1 s = .ok (afterT1 s nt term) := by
  simp only [transitionT1, hgen, except_bind_ok, except_pure, afterT1]

theorem transitionT1_error {e : ErrCode}
    (hgen : genNonce s.cfg.seed.tag s.cfg.ticks.tag = .error e) : transitionT1 s = .error e := by
  simp only [transitionT1, hgen, except_bind_error]

end

/-- Settles O41: T1 returns or raises as `gen_nonce` does. -/
theorem authStepFromIdleIssuesTheTagNonce : Obligations.AuthStepFromIdleIssuesTheTagNonce := by
  intro s hs
  have hlive : ¬ Terminal s := not_terminal_of_state hs rfl
  have fails {e : ErrCode} (hgen : genNonce s.cfg.seed.tag s.cfg.ticks.tag = .error e) :
      exec .authStep s = .next (failsWith s e) :=
    exec_authStep_of_error hlive ((transition_of_idle hs).trans (transitionT1_error hgen))
  refine ⟨fun ht hseed => ⟨_, _, genNonce_ok ht hseed, ?_⟩, fun ht h0 => fails ?_,
    fun ht => fails (genNonce_badTicks ht)⟩
  · exact exec_authStep_of_ok
      ((transition_of_idle hs).trans (transitionT1_ok (genNonce_ok ht hseed)))
  · rw [h0]
    exact genNonce_zeroSeed ht

/-! ### T2 -/

/-- The register and keystream word after `Nr`: 32 clocks from `v`, `Nr` mixed in, 32 clocks more
(R230, R231). -/
def keystreamAfterNr (v : Reg48) (nr : Nonce32) : Reg48 × Nonce32 :=
  wireKeystream ((wireKeystream v).1 ^^^ zext48 nr)

/-- The state T2 leaves with the nonce `nr` and the PRNG's terminal state `term` (R230). -/
def afterT2 (s : State) (nr : Nonce32) (term : Reg16) : State :=
  { s with
    eng := ⟨⟨loadValue s .tag s.lat.tagNt, true⟩,
      ⟨(keystreamAfterNr (loadValue s .reader s.wire.nt) nr).1, true⟩⟩
    prng := { s.prng with reader := ⟨term⟩ }
    lat := { s.lat with rdrNt := s.wire.nt, rdrNr := nr }
    wire := { s.wire with
      nr := nr ^^^ (wireKeystream (loadValue s .reader s.wire.nt)).2
      ar := sucNonce s.wire.nt ^^^ (keystreamAfterNr (loadValue s .reader s.wire.nt) nr).2 }
    fsm := { s.fsm with state := .challengeSent } }

section

variable {s : State}

theorem load_unprimed {e : Engine} (hp : e.primed = false) (x : Reg48) : e.load x = .ok ⟨x, true⟩ :=
  load_eq_ok.2 ⟨hp, rfl⟩

theorem load_primed {e : Engine} (hp : e.primed = true) (x : Reg48) :
    e.load x = .error .alreadyPrimed := by
  simp [Engine.load, hp]

theorem mixIn_primed {e : Engine} (hp : e.primed = true) (x : Reg48) :
    e.mixIn x = .ok (e.withReg (e.reg ^^^ x)) :=
  mixIn_eq_ok.2 ⟨hp, rfl⟩

theorem transitionT2_ok {nr : Nonce32} {term : Reg16} (hT : s.eng.tag.primed = false)
    (hR : s.eng.reader.primed = false)
    (hgen : genNonce s.cfg.seed.reader s.cfg.ticks.reader = .ok (nr, term)) :
    transitionT2 s = .ok (afterT2 s nr term) := by
  simp only [transitionT2, load_unprimed hT, load_unprimed hR, hgen, except_bind_ok]
  rfl

theorem transitionT2_primed (h : s.eng.tag.primed = true ∨ s.eng.reader.primed = true) :
    transitionT2 s = .error .alreadyPrimed := by
  cases hT : s.eng.tag.primed
  · have hR : s.eng.reader.primed = true := by simpa [hT] using h
    simp only [transitionT2, load_unprimed hT, load_primed hR, except_bind_ok, except_bind_error]
  · simp only [transitionT2, load_primed hT, except_bind_error]

theorem transitionT2_error {e : ErrCode} (hT : s.eng.tag.primed = false)
    (hR : s.eng.reader.primed = false)
    (hgen : genNonce s.cfg.seed.reader s.cfg.ticks.reader = .error e) :
    transitionT2 s = .error e := by
  simp only [transitionT2, load_unprimed hT, load_unprimed hR, hgen, except_bind_ok,
    except_bind_error]

end

/-- Settles O42: T2 loads both engines or raises `AlreadyPrimed`, and then returns or raises as
`gen_nonce` does. -/
theorem authStepFromNonceIssuedSendsTheChallenge :
    Obligations.AuthStepFromNonceIssuedSendsTheChallenge := by
  intro s hs
  have hlive : ¬ Terminal s := not_terminal_of_state hs rfl
  have hT2 := transition_of_nonceIssued hs
  refine ⟨fun hT hR ht hseed => ⟨_, _, genNonce_ok ht hseed, ?_⟩,
    fun hp => exec_authStep_of_error hlive (hT2.trans (transitionT2_primed hp)),
    fun hT hR => ⟨fun ht h0 => ?_, fun ht => ?_⟩⟩
  · exact exec_authStep_of_ok (hT2.trans (transitionT2_ok hT hR (genNonce_ok ht hseed)))
  · refine exec_authStep_of_error hlive (hT2.trans (transitionT2_error hT hR ?_))
    rw [h0]
    exact genNonce_zeroSeed ht
  · exact exec_authStep_of_error hlive
      (hT2.trans (transitionT2_error hT hR (genNonce_badTicks ht)))

/-! ### T3 -/

/-- `Nr` as the tag decrypts it (R231). -/
def receivedNr (s : State) : Nonce32 := s.wire.nr ^^^ (wireKeystream s.eng.tag.reg).2

/-- The tag's register once it has checked the reader's response, and the keystream word that
decrypts the response (R231). -/
def responseKeystream (s : State) : Reg48 × Nonce32 :=
  keystreamAfterNr s.eng.tag.reg (receivedNr s)

/-- The reader's response as the tag decrypts it is the one due (R231). -/
def ReaderResponseMatches (s : State) : Prop :=
  s.wire.ar ^^^ (responseKeystream s).2 = sucNonce s.lat.tagNt

/-- The state T3 leaves (R231). -/
def afterT3 (s : State) : State :=
  { s with
    eng := { s.eng with tag := ⟨(wireKeystream (responseKeystream s).1).1, true⟩ }
    lat := { s.lat with tagNr := receivedNr s }
    wire := { s.wire with
      at_ := sucNonce (sucNonce s.lat.tagNt) ^^^ (wireKeystream (responseKeystream s).1).2 }
    fsm := { s.fsm with state := .responseVerified } }

section

variable {s : State}

/-- With a primed tag engine, T3 turns on the comparison of the reader's response (R231). -/
theorem transitionT3_of_primed (hp : s.eng.tag.primed = true) :
    transitionT3 s = (do
      require (s.wire.ar ^^^ (responseKeystream s).2 == sucNonce s.lat.tagNt) .authenticationFailed
      return afterT3 s) := by
  simp only [transitionT3, mixIn_primed ((withReg_primed s.eng.tag _).trans hp), except_bind_ok,
    afterT3, ← hp]
  rfl

theorem transitionT3_ok (hp : s.eng.tag.primed = true) (hmatch : ReaderResponseMatches s) :
    transitionT3 s = .ok (afterT3 s) := by
  rw [transitionT3_of_primed hp, beq_iff_eq.2 hmatch, require_true, except_bind_ok, except_pure]

theorem transitionT3_mismatch (hp : s.eng.tag.primed = true) (hne : ¬ ReaderResponseMatches s) :
    transitionT3 s = .error .authenticationFailed := by
  rw [transitionT3_of_primed hp, beq_eq_false_iff_ne.2 hne, require_false, except_bind_error]

theorem transitionT3_unprimed (hp : s.eng.tag.primed = false) :
    transitionT3 s = .error .notPrimed := by
  simp only [transitionT3, Engine.mixIn, withReg_primed, hp, require_false, except_bind_error]

end

/-- Settles O43: T3 returns or raises by the tag engine's flag and the comparison. -/
theorem authStepFromChallengeSentChecksTheReader :
    Obligations.AuthStepFromChallengeSentChecksTheReader := by
  intro s hs
  have hlive : ¬ Terminal s := not_terminal_of_state hs rfl
  have hT3 := transition_of_challengeSent hs
  exact ⟨fun hp hmatch => exec_authStep_of_ok (hT3.trans (transitionT3_ok hp hmatch)),
    fun hp hne => exec_authStep_of_error hlive (hT3.trans (transitionT3_mismatch hp hne)),
    fun hp => exec_authStep_of_error hlive (hT3.trans (transitionT3_unprimed hp))⟩

/-! ### T4 -/

/-- The state T4 leaves (R232). -/
def afterT4 (s : State) : State :=
  { s with
    eng := { s.eng with
      reader := { s.eng.reader with reg := (wireKeystream s.eng.reader.reg).1 } }
    fsm := { s.fsm with state := .authenticated } }

/-- The tag's response as the reader decrypts it is the one due (R232). -/
def TagResponseMatches (s : State) : Prop :=
  s.wire.at_ ^^^ (wireKeystream s.eng.reader.reg).2 = sucNonce (sucNonce s.lat.rdrNt)

section

variable {s : State}

/-- T4 turns on two comparisons (R232). -/
theorem transitionT4_eq (s : State) :
    transitionT4 s = (do
      require (s.wire.at_ ^^^ (wireKeystream s.eng.reader.reg).2
        == sucNonce (sucNonce s.lat.rdrNt)) .authenticationFailed
      require (s.eng.tag.reg == (wireKeystream s.eng.reader.reg).1) .desynchronizedState
      return afterT4 s) :=
  rfl

theorem transitionT4_ok (hmatch : TagResponseMatches s)
    (hsync : s.eng.tag.reg = (wireKeystream s.eng.reader.reg).1) :
    transitionT4 s = .ok (afterT4 s) := by
  rw [transitionT4_eq, beq_iff_eq.2 hmatch, require_true, except_bind_ok, beq_iff_eq.2 hsync,
    require_true, except_bind_ok, except_pure]

theorem transitionT4_mismatch (hne : ¬ TagResponseMatches s) :
    transitionT4 s = .error .authenticationFailed := by
  rw [transitionT4_eq, beq_eq_false_iff_ne.2 hne, require_false, except_bind_error]

theorem transitionT4_desynchronized (hmatch : TagResponseMatches s)
    (hne : s.eng.tag.reg ≠ (wireKeystream s.eng.reader.reg).1) :
    transitionT4 s = .error .desynchronizedState := by
  rw [transitionT4_eq, beq_iff_eq.2 hmatch, require_true, except_bind_ok,
    beq_eq_false_iff_ne.2 hne, require_false, except_bind_error]

end

/-- Settles O44: T4 returns or raises by its two comparisons, the response's first. -/
theorem authStepFromResponseVerifiedChecksTheTag :
    Obligations.AuthStepFromResponseVerifiedChecksTheTag := by
  intro s hs
  have hlive : ¬ Terminal s := not_terminal_of_state hs rfl
  have hT4 := transition_of_responseVerified hs
  exact ⟨fun hmatch hsync => exec_authStep_of_ok (hT4.trans (transitionT4_ok hmatch hsync)),
    fun hne => exec_authStep_of_error hlive (hT4.trans (transitionT4_mismatch hne)),
    fun hmatch hne =>
      exec_authStep_of_error hlive (hT4.trans (transitionT4_desynchronized hmatch hne))⟩

end Sys2Proof.Machine
end

section
/-! RD_STATUS (44_auth_fsm.md rule R239): the fields of the status word (10_state.md rule R35). -/

namespace Sys2Proof.Machine

open Sys2Proof Safety

/-- Every bit of the status word; above bit 11 the failure code's own bits are 0 (R35). -/
theorem statusWord_getLsbD (s : State) {i : Nat} (hi : i < 48) :
    (statusWord s).getLsbD i =
      if i < 3 then s.fsm.state.code.getLsbD i else if i = 3 then s.eng.tag.primed
      else if i = 4 then s.eng.reader.primed else if i < 8 then false
      else s.fsm.fail.code.getLsbD (i - 8) := by
  simp only [statusWord, FsmState.data, BitVec.getLsbD_or, BitVec.getLsbD_shiftLeft,
    BitVec.getLsbD_setWidth, BitVec.getLsbD_ofBool]
  split_ifs with h3 htag hreader h8
  · simp [hi, h3, show i < 4 by omega, show i < 8 by omega]
  · simp [htag]
  · simp [hreader]
  · simp [h8, show i - 3 ≠ 0 by omega, show i - 4 ≠ 0 by omega,
      BitVec.getLsbD_of_ge s.fsm.state.code i (by omega)]
  · simp [hi, h8, show i - 3 ≠ 0 by omega, show i - 4 ≠ 0 by omega, show i - 8 < 48 by omega,
      BitVec.getLsbD_of_ge s.fsm.state.code i (by omega)]

theorem statusWord_state (s : State) : (statusWord s).extractLsb' 0 3 = s.fsm.state.code := by
  apply BitVec.eq_of_getLsbD_eq
  intro i hi
  rw [BitVec.getLsbD_extractLsb', Nat.zero_add, statusWord_getLsbD s (by omega), if_pos hi]
  simp [hi]

theorem statusWord_fail (s : State) : (statusWord s).extractLsb' 8 4 = s.fsm.fail.code := by
  apply BitVec.eq_of_getLsbD_eq
  intro i hi
  rw [BitVec.getLsbD_extractLsb', statusWord_getLsbD s (by omega)]
  simp [hi, show ¬ 8 + i < 3 by omega, show 8 + i ≠ 3 by omega, show 8 + i ≠ 4 by omega]

theorem statusWord_reserved_low (s : State) : (statusWord s).extractLsb' 5 3 = 0 := by
  apply BitVec.eq_of_getLsbD_eq
  intro i hi
  rw [BitVec.getLsbD_extractLsb', statusWord_getLsbD s (by omega)]
  simp [hi, show ¬ 5 + i < 3 by omega, show 5 + i ≠ 3 by omega, show 5 + i ≠ 4 by omega,
    show 5 + i < 8 by omega]

theorem statusWord_reserved_high (s : State) : (statusWord s).extractLsb' 12 36 = 0 := by
  apply BitVec.eq_of_getLsbD_eq
  intro i hi
  rw [BitVec.getLsbD_extractLsb', statusWord_getLsbD s (by omega)]
  simp [hi, show ¬ 12 + i < 3 by omega, show 12 + i ≠ 3 by omega, show 12 + i ≠ 4 by omega,
    show ¬ 12 + i < 8 by omega, BitVec.getLsbD_of_ge s.fsm.fail.code (12 + i - 8) (by omega)]

/-- Settles O48: RD_STATUS reads the status word, whose fields the lemmas above give. -/
theorem statusWordHoldsItsFields : Obligations.StatusWordHoldsItsFields := by
  refine ⟨encodes_of_fields 0x60 rfl rfl fun _ _ => rfl, fun s => ⟨statusWord s, exec_of_reads rfl,
    ?_, statusWord_getLsbD s (by decide), statusWord_getLsbD s (by decide),
    statusWord_reserved_low s, ?_, statusWord_reserved_high s⟩⟩
  · rw [statusWord_state]
    cases s.fsm.state <;> rfl
  · rw [statusWord_fail]
    cases s.fsm.fail <;> rfl

end Sys2Proof.Machine
end

section
/-! The honest handshake (44_auth_fsm.md rules R233 to R235): what holds before each transition of a
session whose keys, and whose `Nt` in flight, agree above bit 0. The engine's first clock and `suc`
read no bit 0, so such a session goes as one with equal keys and an unchanged `Nt` does. -/

namespace Sys2Proof.Machine

open Sys2Proof Safety

/-- Before T2: it may run, and what the endpoints load clocks alike and their nonces have one
successor. -/
structure HonestBeforeT2 (s : State) : Prop where
  state : s.fsm.state = .nonceIssued
  unprimed : s.eng.tag.primed = false ∧ s.eng.reader.primed = false
  seed : s.cfg.seed.reader ≠ 0
  ticks : s.cfg.ticks.reader.toNat % 16 = 0
  clock : (engClock (loadValue s .tag s.lat.tagNt) none).1
    = (engClock (loadValue s .reader s.wire.nt) none).1
  suc : sucNonce s.lat.tagNt = sucNonce s.wire.nt

/-- Before T3: the tag will decrypt the reader's nonce and the response due, and then hold the
reader's register. -/
structure HonestBeforeT3 (s : State) : Prop where
  state : s.fsm.state = .challengeSent
  primed : s.eng.tag.primed = true
  nonce : receivedNr s = s.lat.rdrNr
  register : (responseKeystream s).1 = s.eng.reader.reg
  response : ReaderResponseMatches s
  suc : sucNonce s.lat.tagNt = sucNonce s.lat.rdrNt

/-- Before T4: the reader will decrypt the response due, and then hold the tag's register. -/
structure HonestBeforeT4 (s : State) : Prop where
  state : s.fsm.state = .responseVerified
  register : s.eng.tag.reg = (wireKeystream s.eng.reader.reg).1
  response : TagResponseMatches s
  nonce : s.lat.tagNr = s.lat.rdrNr

/-- A value encrypted with a keystream word decrypts with the same word (R233). -/
theorem xor_keystream_cancel (v k : Nonce32) : v ^^^ k ^^^ k = v := by
  rw [BitVec.xor_assoc, BitVec.xor_self, BitVec.xor_zero]

/-- Registers that clock alike give the same keystream words (R198). -/
theorem wireKeystream_congr {v w : Reg48} (h : (engClock v none).1 = (engClock w none).1) :
    wireKeystream v = wireKeystream w := by
  rw [wireKeystream, keystream_congr h (by decide), wireKeystream]

/-- Loaded values clock alike, and nonces have one successor, where the keys and the nonces agree
above bit 0 (R198, R235). -/
theorem clock_and_suc_of_agree {s : State} {m n : Nonce32}
    (hkey : s.cfg.key.tag = s.cfg.key.reader ∨ s.cfg.key.tag = s.cfg.key.reader ^^^ 1)
    (hnt : n = m ∨ n = m ^^^ 1) :
    (engClock (loadValue s .tag m) none).1 = (engClock (loadValue s .reader n) none).1
      ∧ sucNonce m = sucNonce n := by
  have hkeyBits := eq_or_eq_xor_one_iff.1 hkey
  have hntBits := eq_or_eq_xor_one_iff.1 hnt
  refine ⟨congrArg Prod.fst (engClock_congr (fun i hlo hhi => ?_) none),
    sucNonce_eq_iff.2 fun i hlo hhi => (hntBits i hlo hhi).symm⟩
  have hzext : (zext48 m).getLsbD i = (zext48 n).getLsbD i := by
    rw [zext48, zext48, BitVec.getLsbD_setWidth, BitVec.getLsbD_setWidth]
    rcases Nat.lt_or_ge i 32 with h | h
    · rw [hntBits i hlo h]
    · rw [BitVec.getLsbD_of_ge _ i h, BitVec.getLsbD_of_ge _ i h]
  simp only [loadValue, BitVec.getLsbD_xor, hzext, PerEndpoint.get_tag, PerEndpoint.get_reader,
    hkeyBits i hlo hhi]

/-! ### The transitions of an honest session -/

/-- T1 from a ready state issues a nonce, and writes no engine and no configuration (R229). -/
theorem ready_step {s : State} (h : Ready s) :
    ∃ t, exec .authStep s = .next t ∧ t.fsm.state = .nonceIssued ∧ t.eng = s.eng ∧ t.cfg = s.cfg
      ∧ t.wire.nt = t.lat.tagNt ∧ t.host = answered s.host .ok 1 :=
  ⟨_, exec_authStep_of_ok ((transition_of_idle h.idle).trans
    (transitionT1_ok (genNonce_ok h.ticks.1 h.seeds.1))), rfl, rfl, rfl, rfl, rfl⟩

/-- Once T1 has run, T2 may, where the keys and the nonces agree above bit 0. -/
theorem honestBeforeT2_of_ready {s t : State} (h : Ready s)
    (hkey : s.cfg.key.tag = s.cfg.key.reader ∨ s.cfg.key.tag = s.cfg.key.reader ^^^ 1)
    (hstate : t.fsm.state = .nonceIssued) (heng : t.eng = s.eng) (hcfg : t.cfg = s.cfg)
    (hnt : t.wire.nt = t.lat.tagNt ∨ t.wire.nt = t.lat.tagNt ^^^ 1) : HonestBeforeT2 t := by
  obtain ⟨hclock, hsuc⟩ := clock_and_suc_of_agree (s := t) (hcfg ▸ hkey) hnt
  exact ⟨hstate, heng ▸ h.unprimed, hcfg ▸ h.seeds.2, hcfg ▸ h.ticks.2, hclock, hsuc⟩

/-- T2 of an honest session (R230). -/
theorem honest_step_T2 {s : State} (h : HonestBeforeT2 s) :
    ∃ t, exec .authStep s = .next t ∧ HonestBeforeT3 t ∧ t.host = answered s.host .ok 2
      ∧ t.lat.tagNt = s.lat.tagNt ∧ t.lat.rdrNt = s.wire.nt := by
  obtain ⟨nr, term, hgen⟩ : ∃ nr term,
      genNonce s.cfg.seed.reader s.cfg.ticks.reader = .ok (nr, term) :=
    ⟨_, _, genNonce_ok h.ticks h.seed⟩
  have hks := wireKeystream_congr h.clock
  have hnr : receivedNr (afterT2 s nr term) = nr := by
    simp only [receivedNr, afterT2, hks, xor_keystream_cancel]
  have hresponse : responseKeystream (afterT2 s nr term)
      = keystreamAfterNr (loadValue s .reader s.wire.nt) nr := by
    simp only [responseKeystream, hnr, keystreamAfterNr]
    simp only [afterT2, hks]
  have hmatch : ReaderResponseMatches (afterT2 s nr term) := by
    rw [ReaderResponseMatches, hresponse]
    exact (xor_keystream_cancel _ _).trans h.suc.symm
  have hT2 := transitionT2_ok h.unprimed.1 h.unprimed.2 hgen
  refine ⟨_, exec_authStep_of_ok ((transition_of_nonceIssued h.state).trans hT2), ?_, rfl, rfl, rfl⟩
  exact ⟨rfl, rfl, hnr, congrArg Prod.fst hresponse, hmatch, h.suc⟩

/-- T3 of an honest session (R231). -/
theorem honest_step_T3 {s : State} (h : HonestBeforeT3 s) :
    ∃ t, exec .authStep s = .next t ∧ HonestBeforeT4 t ∧ t.host = answered s.host .ok 3
      ∧ t.lat.tagNt = s.lat.tagNt ∧ t.lat.rdrNt = s.lat.rdrNt := by
  have hT3 := transitionT3_ok h.primed h.response
  have hmatch : TagResponseMatches (afterT3 s) := by
    simp only [TagResponseMatches, afterT3, h.register, xor_keystream_cancel, h.suc]
  refine ⟨_, exec_authStep_of_ok ((transition_of_challengeSent h.state).trans hT3), ?_,
    rfl, rfl, rfl⟩
  exact ⟨rfl, congrArg (fun v => (wireKeystream v).1) h.register, hmatch, h.nonce⟩

/-- T4 of an honest session (R232). -/
theorem honest_step_T4 {s : State} (h : HonestBeforeT4 s) :
    ∃ t, exec .authStep s = .next t ∧ t.fsm.state = .authenticated
      ∧ t.eng.tag.reg = t.eng.reader.reg ∧ t.host = answered s.host .ok 4 ∧ t.lat = s.lat :=
  ⟨_, exec_authStep_of_ok ((transition_of_responseVerified h.state).trans
    (transitionT4_ok h.response h.register)), rfl, h.register, rfl, rfl⟩

/-- T2 to T4 of an honest session, in a row. -/
theorem honest_run_from_T2 {s : State} (h : HonestBeforeT2 s) :
    ∃ t, runCommands [.authStep, .authStep, .authStep] s = .next t
      ∧ t.fsm.state = .authenticated ∧ t.eng.tag.reg = t.eng.reader.reg
      ∧ t.host.responses = s.host.responses ++ [⟨.ok, 2⟩, ⟨.ok, 3⟩, ⟨.ok, 4⟩]
      ∧ t.lat.tagNr = t.lat.rdrNr ∧ t.lat.tagNt = s.lat.tagNt ∧ t.lat.rdrNt = s.wire.nt := by
  obtain ⟨s2, hx2, h3, hhost2, htag2, hrdr2⟩ := honest_step_T2 h
  obtain ⟨s3, hx3, h4, hhost3, htag3, hrdr3⟩ := honest_step_T3 h3
  obtain ⟨s4, hx4, hstate, hsync, hhost4, hlat⟩ := honest_step_T4 h4
  refine ⟨s4, ?_, hstate, hsync, ?_, ?_, ?_, ?_⟩
  · rw [runCommands_cons_of_next hx2, runCommands_cons_of_next hx3, runCommands_cons_of_next hx4,
      runCommands]
  · simp only [hhost4, hhost3, hhost2, answered, List.append_assoc, List.cons_append,
      List.nil_append]
  · rw [hlat, h4.nonce]
  · rw [hlat, htag3, htag2]
  · rw [hlat, hrdr3, hrdr2]

/-- Settles O56: T1, and then T2 to T4 with the keys equal and the nonce unchanged in flight. -/
theorem honestHandshakeConverges : Obligations.HonestHandshakeConverges := by
  intro s h hkey
  obtain ⟨s1, hx, hstate1, heng, hcfg, hnt, hhost⟩ := ready_step h
  obtain ⟨t, hrun, hstate, hsync, hresp, hnr, htag, hrdr⟩ :=
    honest_run_from_T2 (honestBeforeT2_of_ready h (.inl hkey) hstate1 heng hcfg (.inl hnt))
  refine ⟨t, (runCommands_cons_of_next hx).trans hrun, hstate, hsync, ?_, hnr, ?_⟩
  · rw [hresp, hhost]
    exact List.append_assoc ..
  · rw [htag, hrdr, hnt]

/-! ### Values changed in flight -/

/-- The state a wire command leaves in its window (R240). -/
def State.withWire (s : State) (x : WireName) (v : Nonce32) : State :=
  { s with wire := s.wire.write x v, host := answered s.host .ok 0 }

/-- A 32-bit value as a command's operand is written as it is (R84). -/
theorem exec_wire_value {x : WireName} {s : State} (hx : s.fsm.state = x.window) (v : Nonce32) :
    exec (x.command (v.setWidth 48)) s = .next (s.withWire x v) := by
  have hfits : (v.setWidth 48).toNat < 2 ^ 32 := by
    rw [BitVec.toNat_setWidth_of_le (by decide)]
    exact v.isLt
  rw [exec_wire_ok hfits hx, BitVec.setWidth_setWidth_of_le v (by decide), BitVec.setWidth_eq]
  rfl

/-- Settles O57: the nonce written in flight agrees with the tag's above bit 0, and T2 to T4 ask for
no more. -/
theorem bitZeroOfKeyAndNtGoesUndetected : Obligations.BitZeroOfKeyAndNtGoesUndetected := by
  intro s h hkey
  obtain ⟨s1, hx, hstate1, heng, hcfg, hnt, -⟩ := ready_step h
  refine ⟨s1, hx, fun v hv => ?_⟩
  rw [hnt] at hv
  have hbefore : HonestBeforeT2 (s1.withWire .nt v) :=
    honestBeforeT2_of_ready h hkey hstate1 heng hcfg hv
  obtain ⟨t, hrun, hstate, hsync, -⟩ := honest_run_from_T2 hbefore
  have hwrite := exec_wire_value (x := .nt) hstate1 v
  exact ⟨t, (runCommands_cons_of_next hwrite).trans hrun, hstate, hsync⟩

/-- Two commands that are answered, in a row. -/
theorem runCommands_pair {i j : Instr} {s u t : State} (hi : exec i s = .next u)
    (hj : exec j u = .next t) : runCommands [i, j] s = .next t := by
  rw [runCommands_cons_of_next hi, runCommands_cons_of_next hj, runCommands]

/-- A wire command in its window and then an AUTH_STEP whose transition raises an error: the
handshake has failed with that error (R283). -/
theorem run_wire_then_failing_step {x : WireName} {s : State} {v : Nonce32} {e : ErrCode}
    (hx : s.fsm.state = x.window) (he : transition (s.withWire x v) = .error e) :
    ∃ t, runCommands [x.command (v.setWidth 48), .authStep] s = .next t ∧ t.fsm = ⟨.failed, e⟩ := by
  have hlive : ¬ Terminal (s.withWire x v) := not_terminal_of_window (x := x) hx
  exact ⟨_, runCommands_pair (exec_wire_value hx v) (exec_authStep_of_error hlive he), rfl⟩

/-- Another reader's response than the one due fails T3: its keystream word is the same (R243). -/
theorem changed_ar_fails {s : State} (h : HonestBeforeT3 s) {v : Nonce32} (hv : v ≠ s.wire.ar) :
    transition (s.withWire .ar v) = .error .authenticationFailed := by
  have hne : ¬ ReaderResponseMatches (s.withWire .ar v) := fun hmatch => by
    have hsame : v ^^^ (responseKeystream s).2 = s.wire.ar ^^^ (responseKeystream s).2 :=
      hmatch.trans h.response.symm
    exact hv ((BitVec.xor_left_inj _).1 hsame)
  rw [transition_of_challengeSent (s := s.withWire .ar v) h.state]
  exact transitionT3_mismatch h.primed hne

/-- Another tag's response than the one due fails T4: its keystream word is the same (R244). -/
theorem changed_at_fails {s : State} (h : HonestBeforeT4 s) {v : Nonce32} (hv : v ≠ s.wire.at_) :
    transition (s.withWire .at_ v) = .error .authenticationFailed := by
  have hne : ¬ TagResponseMatches (s.withWire .at_ v) := fun hmatch => by
    have hsame : v ^^^ (wireKeystream s.eng.reader.reg).2
        = s.wire.at_ ^^^ (wireKeystream s.eng.reader.reg).2 :=
      hmatch.trans h.response.symm
    exact hv ((BitVec.xor_left_inj _).1 hsame)
  rw [transition_of_responseVerified (s := s.withWire .at_ v) h.state]
  exact transitionT4_mismatch hne

/-- Settles O58: the honest session reaches both windows, and a changed response fails in each. -/
theorem changedResponsesFailAuthentication : Obligations.ChangedResponsesFailAuthentication := by
  intro s v h hkey
  obtain ⟨s1, hx, hstate1, heng, hcfg, hnt, -⟩ := ready_step h
  obtain ⟨s2, hx2, h3, -⟩ :=
    honest_step_T2 (honestBeforeT2_of_ready h (.inl hkey) hstate1 heng hcfg (.inl hnt))
  obtain ⟨s3, hx3, h4, -⟩ := honest_step_T3 h3
  exact ⟨s2, s3, runCommands_pair hx hx2, hx3,
    fun hv => run_wire_then_failing_step (x := .ar) h3.state (changed_ar_fails h3 hv),
    fun hv => run_wire_then_failing_step (x := .at_) h4.state (changed_at_fails h4 hv)⟩

end Sys2Proof.Machine
end

section
/-! What an error leaves of the state (60_exceptions.md rules R281 to R283): the response, and the
failure entry in the four cases of R283. -/

namespace Sys2Proof.Machine

open Sys2Proof Safety

/-- The four cases of R283 in which an error enters `Failed`, in the spec's words. -/
def FailureCase (c : CommandClass) (s : State) (e : ErrCode) : Prop :=
  (c = .step ∧ ¬ Terminal s)
  ∨ ((c = .direct ∨ c = .config) ∧ InHandshake s ∧ e = .protocolViolation)
  ∨ (c = .config ∧ s.fsm.state = .idle ∧ (e = .invalidWidth ∨ e = .invalidTickCount))
  ∨ (c = .wire ∧ ¬ Terminal s ∧ (e = .protocolViolation ∨ e = .invalidWidth))

/-- The machine's test for the failure entry is R283's list of cases. -/
theorem entersFailed_iff (c : CommandClass) (s : State) (e : ErrCode) :
    entersFailed c s.fsm.state e = true ↔ FailureCase c s e := by
  unfold FailureCase
  rw [inHandshake_iff, terminal_iff]
  cases c <;> simp [entersFailed]

/-- Taking an error in one of R283's cases is the failure entry with that error. -/
theorem raiseError_of_failureCase {c : CommandClass} {s : State} {e : ErrCode}
    (h : FailureCase c s e) : s.raiseError c e = failsWith s e :=
  raiseError_of_enters ((entersFailed_iff c s e).2 h)

/-- Taking an error in any other case changes no state of the block (R282, R283). -/
theorem raiseError_of_not_failureCase {c : CommandClass} {s : State} {e : ErrCode}
    (h : ¬ FailureCase c s e) : s.raiseError c e = refusedWith s e :=
  raiseError_of_not_enters (Bool.eq_false_iff.2 fun hf => h ((entersFailed_iff c s e).1 hf))

theorem lastResponse_respond (s : State) (e : ErrCode) (d : Data48) :
    lastResponse (s.respond e d) = some ⟨e, d⟩ := by
  simp [lastResponse]

theorem lastResponse_raiseError (s : State) (c : CommandClass) (e : ErrCode) :
    lastResponse (s.raiseError c e) = some ⟨e, 0⟩ :=
  lastResponse_respond _ e 0

/-- A command whose response carries an error is one whose error was taken from the state before it
(R281, R282). -/
theorem exec_of_error_response {i : Instr} {s t : State} {r : Response} (hx : exec i s = .next t)
    (hr : lastResponse t = some r) (herr : r.err ≠ .ok) : t = s.raiseError (classOf i) r.err := by
  rcases exec_cases hx with ⟨u, d, -, rfl⟩ | ⟨e, -, rfl⟩
  · rw [lastResponse_respond] at hr
    cases hr
    exact absurd rfl herr
  · rw [lastResponse_raiseError] at hr
    cases hr
    rfl

/-- Settles O49: an error response means that the error was taken, and R283's cases decide how. -/
theorem errorsChangeOnlyTheStateMachine : Obligations.ErrorsChangeOnlyTheStateMachine := by
  intro i s t r hx hr herr
  obtain rfl := exec_of_error_response hx hr herr
  exact ⟨raiseError_of_failureCase, raiseError_of_not_failureCase⟩

end Sys2Proof.Machine
end

section
/-! A step always has a next state, and without a command it holds the block (60_exceptions.md rules
R285, R287, R294; 70_reset_and_hazards.md rule R310). -/

namespace Sys2Proof.Machine

open Sys2Proof Safety

/-- An event that runs no command is a step to the state it settles in. -/
theorem step_of_settled {s t : State} (h : deliver s = .settled t) : step s = .next t := by
  rw [step, h]

/-- A command always completes, with an error or without one (R285, R287). -/
theorem exec_isNext (i : Instr) (s : State) : ∃ t, exec i s = .next t := by
  rw [exec_eq_answer]
  exact answer_isNext ..

/-- Settles O11: an event settles in a state or runs a command, and every command completes. -/
theorem everyStepAnswersANextState : Obligations.EveryStepAnswersANextState := by
  intro s
  cases hd : deliver s with
  | settled t => exact ⟨t, step_of_settled hd⟩
  | run i t =>
    rw [step, hd]
    exact exec_isNext i t

/-- Settles O8: with no event, and on a release of the reset input, no command runs. -/
theorem stepWithoutACommandHoldsTheBlock : Obligations.StepWithoutACommandHoldsTheBlock := by
  refine ⟨fun s hp => step_of_settled ?_, fun s rest hp => step_of_settled ?_⟩
  · rw [deliver, hp]
  · simp [deliver, hp, State.takeEvent, State.withResetInput]

end Sys2Proof.Machine
end

section
/-! The reset state, and what a step does under reset (70_reset_and_hazards.md rules R310, R311). -/

namespace Sys2Proof.Machine

open Sys2Proof Safety

/-- A word that arrives while reset is asserted settles with nothing done (R310). -/
theorem deliver_command_under_reset {s : State} {w : CmdWord} {rest : List HostEvent}
    (hp : s.host.pending = .command w :: rest) (hr : s.host.resetAsserted = true) :
    deliver s = .settled s.takeEvent := by
  have hr' : s.takeEvent.host.resetAsserted = true := hr
  rw [deliver, hp]
  exact if_pos hr'

/-- Settles O9: both events settle without a command, the assertion in `State.reset` with the host's
side kept. -/
theorem hardwareResetPutsEveryRegisterToItsResetValue :
    Obligations.HardwareResetPutsEveryRegisterToItsResetValue := by
  refine ⟨fun s rest hp => step_of_settled ?_, fun s w rest hp hr => step_of_settled ?_⟩
  · rw [deliver, hp]
    simp only [State.hardwareReset, State.withResetInput, State.takeEvent, State.reset, hp,
      List.tail_cons]
  · rw [deliver_command_under_reset hp hr, State.takeEvent, hp, List.tail_cons]

theorem statusWord_reset : statusWord State.reset = 0 := by decide

/-- Settles O10: the fields of `State.reset` are R311's, and RD_STATUS reads the status word. -/
theorem resetStateHoldsTheSpecsValues : Obligations.ResetStateHoldsTheSpecsValues := by
  refine ⟨rfl, rfl, rfl, rfl, rfl, rfl, exec_of_reads ?_⟩
  rw [commandBody, rdStatusBody, statusWord_reset]

/-- Settles O55: the base of the invariant, `sound_reset`. -/
theorem resetStateIsSound : Obligations.ResetStateIsSound := sound_reset

end Sys2Proof.Machine
end

section
/-! A register put back into an engine (70_reset_and_hazards.md rule R316, 30_encoding.md rule
R90). -/

namespace Sys2Proof.Machine

open Sys2Proof Safety

/-- An engine command right after its endpoint's engine was written acts on the engine written. -/
theorem exec_engine_after_set {f : Endpoint → Instr} {op : EngineOp} {ep : Endpoint} {s : State}
    {h : HostPort} {e e' : Engine} {d : Data48} (hf : ActsOnEngine f op) (hs : Outside s)
    (hop : op e = .ok (e', d)) :
    exec (f ep) { s with eng := s.eng.set ep e, host := h }
      = .next { s with eng := s.eng.set ep e', host := answered h .ok d } := by
  have hwritten : op ((s.eng.set ep e).get ep) = .ok (e', d) := by rw [PerEndpoint.get_set, hop]
  rw [exec_engine_of_ok (s := { s with eng := s.eng.set ep e, host := h }) hf hs hwritten,
    PerEndpoint.set_set]

/-- ENG_RESET, ENG_LOAD and ENG_KS in a row give the keystream of the value loaded, whatever the
engine held before (R199, R200, R203). -/
theorem run_reset_load_ks {ep : Endpoint} {x n : Data48} {s : State} (h : Outside s)
    (hn : n.toNat ≤ 48) :
    runCommands [.engReset ep, .engLoad ep x, .engKs ep n] s = .next
      { s with
        eng := s.eng.set ep ⟨(keystream x n.toNat).1, true⟩
        host := answered (answered (answered s.host .ok 0) .ok 0) .ok (keystream x n.toNat).2 } :=
  (runCommands_cons_of_next (exec_engine_of_ok engReset_actsOnEngine h rfl)).trans <|
    runCommands_pair
      (exec_engine_after_set (engLoad_actsOnEngine x) h (engineOp_load_ok rfl))
      (exec_engine_after_set (engKs_actsOnEngine n) h (engineOp_ks_ok hn rfl))

theorem lastResponse_answered {s : State} {p : HostPort} {e : ErrCode} {d : Data48}
    (h : s.host = answered p e d) : lastResponse s = some ⟨e, d⟩ := by
  simp [lastResponse, h, answered]

/-- Settles O36: the value read is the register, and both keystreams are taken from it. -/
theorem restoredSnapshotReplaysItsKeystream : Obligations.RestoredSnapshotReplaysItsKeystream := by
  intro ep n s s1 s2 snap hs hp hn hsnap hread hks
  have hsnapshot : exec (.engRdstate ep) s = .next (readsAs s (s.eng.get ep).reg) :=
    exec_of_reads rfl
  obtain rfl := Host.Outcome.next.inj (hsnapshot.symm.trans hread)
  obtain rfl : (s.eng.get ep).reg = snap := by
    rw [lastResponse_answered (s := readsAs s _) rfl] at hsnap
    cases hsnap
    rfl
  have hkeystream := exec_engine_of_ok (ep := ep) (s := readsAs s (s.eng.get ep).reg)
    (engKs_actsOnEngine n) hs (engineOp_ks_ok hn hp)
  obtain rfl := Host.Outcome.next.inj (hkeystream.symm.trans hks)
  refine ⟨_, run_reset_load_ks hs hn, ?_, ?_⟩
  · rw [lastResponse_answered rfl, lastResponse_answered rfl]
    rfl
  · exact ⟨PerEndpoint.set_set .., rfl, rfl, rfl, rfl, rfl⟩

end Sys2Proof.Machine
end

section
/-! Commands whose repeat changes nothing more (70_reset_and_hazards.md rule R317): outside a
handshake each checks an operand, which no state decides, and then acts in a way that acting once
more leaves as it is. -/

namespace Sys2Proof.Machine

open Sys2Proof Safety

/-- Acting once more, after the answer, gives the same answer and leaves the state as it is. -/
def StableAction (act : State → State × Data48) : Prop :=
  ∀ s d, Outside s → Outside (act s).1
    ∧ act ((act s).1.respond .ok d) = ((act s).1.respond .ok d, (act s).2)

/-- Outside a handshake the command checks its operand and then takes the operand's action, which is
stable. -/
structure ActsByOperand {α : Type} (i : Instr) (operand : Except ErrCode α)
    (act : α → State → State × Data48) : Prop where
  body : ∀ s, Outside s → commandBody i s = operand >>= fun v => pure (act v s)
  stable : ∀ v, StableAction (act v)

/-- After an error the same error changes no state of the block: what enters `Failed` has entered it
by the first, and no error enters it from there (R283). -/
theorem raiseError_again (s : State) (c : CommandClass) (e : ErrCode) :
    (s.raiseError c e).raiseError c e = refusedWith (s.raiseError c e) e := by
  cases hf : entersFailed c s.fsm.state e
  · refine raiseError_of_not_enters ?_
    rw [raiseError_of_not_enters hf]
    exact hf
  · refine raiseError_terminal (.inr ?_) c e
    rw [raiseError_of_enters hf]
    rfl

/-- An error outside a handshake leads into none: it writes no state but `Failed` (R283). -/
theorem outside_raiseError {s : State} (h : Outside s) (c : CommandClass) (e : ErrCode) :
    Outside (s.raiseError c e) := by
  unfold State.raiseError
  split
  · exact .inr (.inr rfl)
  · exact h

/-- A command that acts by its operand, repeated at once, changes nothing more (R317). -/
theorem exec_again {α : Type} {i : Instr} {operand : Except ErrCode α}
    {act : α → State → State × Data48} (hi : ActsByOperand i operand act) {s t : State}
    (hs : Outside s) (hx : exec i s = .next t) :
    ∃ u, exec i t = .next u ∧ SameBlock u t ∧ lastResponse u = lastResponse t := by
  cases operand with
  | ok v =>
    obtain ⟨hout, hagain⟩ := hi.stable v s (act v s).2 hs
    have hfirst : exec i s = .next ((act v s).1.respond .ok (act v s).2) :=
      exec_of_body_ok (hi.body s hs) rfl
    obtain rfl := Host.Outcome.next.inj (hfirst.symm.trans hx)
    have hbody := (hi.body ((act v s).1.respond .ok (act v s).2) hout).trans
      (congrArg Except.ok hagain)
    refine ⟨_, exec_of_body_ok hbody rfl, ⟨rfl, rfl, rfl, rfl, rfl, rfl⟩, ?_⟩
    rw [lastResponse_respond, lastResponse_respond]
  | error e =>
    have hfirst : exec i s = .next (s.raiseError (classOf i) e) :=
      exec_of_body_error (hi.body s hs) rfl
    obtain rfl := Host.Outcome.next.inj (hfirst.symm.trans hx)
    refine ⟨_, exec_of_body_error (hi.body _ (outside_raiseError hs _ e)) (raiseError_again ..),
      ⟨rfl, rfl, rfl, rfl, rfl, rfl⟩, ?_⟩
    rw [lastResponse_answered (s := refusedWith _ e) rfl, lastResponse_raiseError]

/-! ### The commands -/

/-- A command that only reads the block. -/
theorem actsByOperand_of_reads {i : Instr} {read : State → Data48}
    (hbody : ∀ s, commandBody i s = returnData s (read s))
    (hread : ∀ s d, read (s.respond .ok d) = read s) :
    ActsByOperand i (.ok ()) fun _ s => (s, read s) where
  body s _ := hbody s
  stable _ s d hs := ⟨hs, congrArg (Prod.mk _) (hread s d)⟩

/-- SUC reads its operand and nothing else (R174). -/
theorem suc_actsByOperand (d : Data48) :
    ActsByOperand (.suc d) (operandData32 d) fun n s => (s, zext48 (sucNonce n)) where
  body _ _ := rfl
  stable _ _ _ hs := ⟨hs, rfl⟩

theorem engReset_actsByOperand (ep : Endpoint) :
    ActsByOperand (.engReset ep) (.ok ()) fun _ s => (s.setEng ep Engine.cleared, 0) where
  body s hs := engReset_actsOnEngine.body ep s hs
  stable _ s d hs := ⟨hs, by simp [State.setEng, State.respond]⟩

theorem stable_setPrng (ep : Endpoint) (v : Reg16) (a : Data48) :
    StableAction fun s => (s.setPrng ep v, a) :=
  fun _ _ hs => ⟨hs, by simp [State.setPrng, State.respond]⟩

/-- PRNG_SEED writes the seed, when it is not 0 (R170). -/
theorem prngSeed_actsByOperand (ep : Endpoint) (d : Data48) :
    ActsByOperand (.prngSeed ep d)
      (do let seed ← operandData16 d; require (seed != 0) .zeroSeed; return seed)
      fun seed s => (s.setPrng ep seed, 0) where
  body s hs := by
    simp only [commandBody, prngSeedBody, gate_outside hs, except_bind_ok, bind_assoc, pure_bind]
  stable seed := stable_setPrng ep seed 0

/-- PRNG_NONCE reads no register: what it writes is the terminal state of its own seed (R172). -/
theorem prngNonce_actsByOperand (ep : Endpoint) (d : Data48) :
    ActsByOperand (.prngNonce ep d) (operandNonceArgs d >>= fun v => genNonce v.1 v.2)
      fun r s => (s.setPrng ep r.2, zext48 r.1) where
  body s hs := by
    simp only [commandBody, prngNonceBody, gate_outside hs, except_bind_ok, bind_assoc]
  stable r := stable_setPrng ep r.2 (zext48 r.1)

theorem setUid_actsByOperand (d : Data48) :
    ActsByOperand (.setUid d) (operandData32 d)
      fun u s => ({ s with cfg := { s.cfg with uid := u } }, 0) where
  body s hs := by simp only [commandBody, setUidBody, gate_outside hs, except_bind_ok]
  stable _ _ _ hs := ⟨hs, rfl⟩

theorem setKey_actsByOperand (ep : Endpoint) (k : Data48) :
    ActsByOperand (.setKey ep k) (.ok k)
      fun k s => ({ s with cfg := { s.cfg with key := s.cfg.key.set ep k } }, 0) where
  body _ hs := setKeyBody_ok hs
  stable _ _ _ hs := ⟨hs, by simp [State.respond]⟩

theorem setSeed_actsByOperand (ep : Endpoint) (d : Data48) :
    ActsByOperand (.setSeed ep d) (operandData16 d)
      fun v s => ({ s with cfg := { s.cfg with seed := s.cfg.seed.set ep v } }, 0) where
  body s hs := by simp only [commandBody, setSeedBody, gate_outside hs, except_bind_ok]
  stable _ _ _ hs := ⟨hs, by simp [State.respond]⟩

theorem setTicks_actsByOperand (ep : Endpoint) (d : Data48) :
    ActsByOperand (.setTicks ep d)
      (do
        let t ← operandData16 d
        require (t.toNat % Config.tickUnit == 0) .invalidTickCount
        return t)
      fun t s => ({ s with cfg := { s.cfg with ticks := s.cfg.ticks.set ep t } }, 0) where
  body s hs := by
    simp only [commandBody, setTicksBody, gate_outside hs, except_bind_ok, bind_assoc, pure_bind]
  stable _ _ _ hs := ⟨hs, by simp [State.respond]⟩

theorem sessionNew_actsByOperand :
    ActsByOperand .sessionNew (.ok ()) fun _ s => (s.freshSession, 0) where
  body _ _ := rfl
  stable _ _ _ _ := ⟨.inl rfl, rfl⟩

/-- Outside a handshake no wire value is in flight, so a wire command never acts (R240). -/
theorem wire_actsByOperand (x : WireName) (d : Data48) :
    ActsByOperand (α := Empty) (x.command d) (.error .protocolViolation) fun v => v.elim where
  body s hs := by
    have hx : s.fsm.state ≠ x.window := fun hx => by
      rw [outside_iff, hx] at hs
      cases x <;> cases hs
    rw [commandBody_wireCommand, wireWrBody_outside hx, except_bind_error]
  stable v := v.elim

/-- Settles O59: every command but the six acts by its operand, so `exec_again` has it. -/
theorem otherCommandsAreIdempotentOutsideAHandshake :
    Obligations.OtherCommandsAreIdempotentOutsideAHandshake := by
  intro i s t hs hx hload hmix hclk hks hprng hstep
  cases i with
  | engLoad ep x => exact absurd rfl (hload ep x)
  | engMix ep x => exact absurd rfl (hmix ep x)
  | engClk ep iv ib => exact absurd rfl (hclk ep iv ib)
  | engKs ep n => exact absurd rfl (hks ep n)
  | prngClk ep => exact absurd rfl (hprng ep)
  | authStep => exact absurd rfl hstep
  | engReset ep => exact exec_again (engReset_actsByOperand ep) hs hx
  | prngSeed ep d => exact exec_again (prngSeed_actsByOperand ep d) hs hx
  | prngNonce ep d => exact exec_again (prngNonce_actsByOperand ep d) hs hx
  | suc d => exact exec_again (suc_actsByOperand d) hs hx
  | setUid d => exact exec_again (setUid_actsByOperand d) hs hx
  | setKey ep k => exact exec_again (setKey_actsByOperand ep k) hs hx
  | setSeed ep d => exact exec_again (setSeed_actsByOperand ep d) hs hx
  | setTicks ep d => exact exec_again (setTicks_actsByOperand ep d) hs hx
  | sessionNew => exact exec_again sessionNew_actsByOperand hs hx
  | wireWrNt d => exact exec_again (wire_actsByOperand .nt d) hs hx
  | wireWrNr d => exact exec_again (wire_actsByOperand .nr d) hs hx
  | wireWrAr d => exact exec_again (wire_actsByOperand .ar d) hs hx
  | wireWrAt d => exact exec_again (wire_actsByOperand .at_ d) hs hx
  | _ => exact exec_again (actsByOperand_of_reads (fun _ => rfl) fun _ _ => rfl) hs hx

end Sys2Proof.Machine
end
